-- ==== Sys2Proof/Word.lean ====
section
/-!
DEFINITION. The word types of the framer (00_scope.md R11): bytes of 8 bits, the 16-bit CRC accumulator, 32-bit registers.
-/

namespace Sys2Proof

/-- A byte (R11). -/
abbrev Byte := BitVec 8

/-- The 16-bit CRC value (R11, R150). -/
abbrev Crc := BitVec 16

/-- A 32-bit register value (R11, R71). -/
abbrev Word := BitVec 32

end Sys2Proof
end

