-- ==== Sys2Proof/Config.lean ====
section
/-!
DEFINITION. What an implementation of the framer fixes: the sizes (00_scope.md R6), the two build-time parameters (R7),
the fixed frame bytes (30_encoding.md R109), the shape of the bus port (43_arbiter.md R200), and the free values.
-/

namespace Sys2Proof

/-- P_LATCH_CLEAR (R7): when a successful send clears the retransmit latch. -/
inductive LatchClear where
  /-- Every successful FrameSend clears it (R232); the spec's default. -/
  | perSend
  /-- Only END_EXCHANGE and reset clear it (R233). -/
  | perExchange
deriving DecidableEq, Repr, Inhabited

/-- P_WTX_CACHE (R7): whether the automatic WTX response goes through the transmit buffer. -/
inductive WtxCache where
  /-- The response is built in a scratch frame (R256); the spec's default. -/
  | bypass
  /-- The response goes through FrameSend and overwrites TXBUF (R256). -/
  | overwrite
deriving DecidableEq, Repr, Inhabited

/-- The build-time parameters of one framer (R7). No step writes them (R360). -/
structure Params where
  latchClear : LatchClear
  wtxCache : WtxCache
deriving DecidableEq, Repr

/-- The direction of a bus attempt (R200). -/
inductive BusDir where
  | write
  | read
deriving DecidableEq, Repr, Inhabited

/-- The four answers of the peer to one bus attempt (R200, R201). -/
inductive BusAnswer where
  /-- The whole transfer succeeded; for a read, the bytes read. -/
  | ack (d : List Byte)
  /-- The slave did not acknowledge ("slave not ready"). -/
  | nack
  /-- A partial transfer of k bytes. -/
  | short (k : Nat)
  /-- Any other bus error. -/
  | fault
deriving DecidableEq, Repr, Inhabited

namespace Config

/-- The largest INF (R6, R175). -/
def maxInf : Nat := 254

/-- The capacity of TXBUF and of RXBUF (R6, R35, R36). -/
def frameBytes : Nat := 259

/-- The capacity of ATRBUF (R37). -/
def atrBytes : Nat := 254

/-- NAD of host→SE (R109). -/
def nadHost : Byte := 0x5A#8

/-- NAD of SE→host (R109). -/
def nadPeer : Byte := 0xA5#8

/-- FREE VALUE. What the peer answers to an attempt once the answers written down in `link.answers` are used up (R200, U7):
one value for each count of such attempts and each request (slave address, direction, length, data). No law holds of it
(log 3). -/
opaque peerAnswer : (count : Nat) → (addr : BitVec 7) → BusDir → (n : Nat) → (data : List Byte) → BusAnswer

/-- FREE VALUE. The echo byte of a WTX response to a request with LEN = 0 (R251 `draw()`, U5): one byte for each
occurrence, under no law (log 8). -/
opaque echoByte : (count : Nat) → Byte

end Config

end Sys2Proof
end

