-- ==== Sys2Proof/Syntax.lean ====
section
/-!
DEFINITION. The instructions: one constructor for each row of spec/opcode_table.json.

Two layers (30_encoding.md): the command frames of the host port (R101, R104), each with its ARG byte and its DATA bytes
(DLEN is the number of them), and the PCB rows of the wire blocks (R110 to R116), each with the fields of its PCB that the
row does not fix. The rest of a block (NAD, LEN, INF) is not in the table's row: it lies in RXBUF when the block runs.
-/

namespace Sys2Proof

/-- One instruction: a command frame, or the PCB of a received wire block. -/
inductive Instr where
  /-- CRC_CALC, OPC 0x01 (R155). -/
  | crcCalc (arg : Byte) (data : List Byte)
  /-- FRAME_ENCODE, OPC 0x02 (R180). -/
  | frameEncode (arg : Byte) (data : List Byte)
  /-- FRAME_DECODE, OPC 0x03 (R182). -/
  | frameDecode (arg : Byte) (data : List Byte)
  /-- SEND_I, OPC 0x10 (R236). -/
  | sendI (arg : Byte) (data : List Byte)
  /-- SEND_R, OPC 0x11 (R240). -/
  | sendR (arg : Byte) (data : List Byte)
  /-- SEND_S, OPC 0x12 (R242). -/
  | sendS (arg : Byte) (data : List Byte)
  /-- RECV, OPC 0x13 (R246). -/
  | recv (arg : Byte) (data : List Byte)
  /-- SOFT_RESET, OPC 0x14 (R270). -/
  | softReset (arg : Byte) (data : List Byte)
  /-- HARD_RESET, OPC 0x15 (R272). -/
  | hardReset (arg : Byte) (data : List Byte)
  /-- CLEAR_SEQ, OPC 0x20 (R290). -/
  | clearSeq (arg : Byte) (data : List Byte)
  /-- END_EXCHANGE, OPC 0x21 (R291). -/
  | endExchange (arg : Byte) (data : List Byte)
  /-- RDREG, OPC 0x30 (R293). -/
  | rdreg (arg : Byte) (data : List Byte)
  /-- WRREG, OPC 0x31 (R294). -/
  | wrreg (arg : Byte) (data : List Byte)
  /-- READ_BUF, OPC 0x32 (R295). -/
  | readBuf (arg : Byte) (data : List Byte)
  /-- ILLEGAL: a frame whose OPC is none of the 14 above (R297). -/
  | illegal (opc arg : Byte) (data : List Byte)
  /-- I-block (R111): N(S), M, and the ignored bits 4:0. -/
  | iBlock (ns m : Bool) (ignored : BitVec 5)
  /-- R-block with EE = 0 (R112): N(R), the ignored bit 5, the ignored bits 3:2. -/
  | rBlockNoError (nr ignored5 : Bool) (ignored32 : BitVec 2)
  /-- R-block with EE = 1 (R112). -/
  | rBlockCrcError (nr ignored5 : Bool) (ignored32 : BitVec 2)
  /-- R-block with EE = 2 (R112). -/
  | rBlockOtherError (nr ignored5 : Bool) (ignored32 : BitVec 2)
  /-- R-block with EE = 3, not in the source's set (R115). -/
  | rBlockUnnamedError (nr ignored5 : Bool) (ignored32 : BitVec 2)
  /-- S-block RESYNC request, PCB 0xC0 (R114). -/
  | sResyncRequest
  /-- S-block RESYNC response, PCB 0xE0 (R114). -/
  | sResyncResponse
  /-- S-block SET_IFS request, PCB 0xC1 (R114). -/
  | sSetIfsRequest
  /-- S-block SET_IFS response, PCB 0xE1 (R114). -/
  | sSetIfsResponse
  /-- S-block ABORT request, PCB 0xC2 (R114). -/
  | sAbortRequest
  /-- S-block ABORT response, PCB 0xE2 (R114). -/
  | sAbortResponse
  /-- S-block WTX request, PCB 0xC3 (R114, R256). -/
  | sWtxRequest
  /-- S-block WTX response, PCB 0xE3 (R114). -/
  | sWtxResponse
  /-- S-block EOA request, PCB 0xC5 (R114). -/
  | sEoaRequest
  /-- S-block EOA response, PCB 0xE5 (R114). -/
  | sEoaResponse
  /-- S-block RESET request, PCB 0xC6 (R114). -/
  | sResetRequest
  /-- S-block RESET response, PCB 0xE6 (R114). -/
  | sResetResponse
  /-- S-block ATR request, PCB 0xC7 (R114). -/
  | sAtrRequest
  /-- S-block ATR response, PCB 0xE7 (R114). -/
  | sAtrResponse
  /-- S-block SOFT_RESET request, PCB 0xCF (R114). -/
  | sSoftResetRequest
  /-- S-block SOFT_RESET response, PCB 0xEF (R114). -/
  | sSoftResetResponse
  /-- S-block of a type the source does not name: 4, 8..14, 16..31 (R114, R116). -/
  | sUnnamed (dir : Bool) (type : BitVec 5)
deriving DecidableEq, Repr

/-- The two encoding layers (30_encoding.md). -/
inductive Layer where
  | command
  | block
deriving DecidableEq, Repr

end Sys2Proof
end

