-- ==== Sys2Proof/WellFormed.lean ====
section
/-!
DEFINITION. Which terms of `Instr` stand for something an encoding can say: DLEN is a 16-bit field (30_encoding.md R101),
ILLEGAL has an opcode outside the map (R104, R297), and the unnamed S-block row has a type the source does not name (R114).
The legality checks of R103 are no part of this: a frame that fails them is well formed and completes with an error.
-/

namespace Sys2Proof

/-- DATA fits the 16-bit DLEN field (R101). -/
def dataFits (data : List Byte) : Bool := data.length < 65536

/-- The 14 defined opcodes (R104). -/
def definedOpcodes : List Byte :=
  [0x01#8, 0x02#8, 0x03#8, 0x10#8, 0x11#8, 0x12#8, 0x13#8, 0x14#8, 0x15#8, 0x20#8, 0x21#8, 0x30#8, 0x31#8, 0x32#8]

/-- The eight S-block types the source names (R114). -/
def namedTypes : List (BitVec 5) := [0#5, 1#5, 2#5, 3#5, 5#5, 6#5, 7#5, 15#5]

/-- The well-formed instructions. -/
def Instr.wf : Instr → Bool
  | .crcCalc _ data => dataFits data
  | .frameEncode _ data => dataFits data
  | .frameDecode _ data => dataFits data
  | .sendI _ data => dataFits data
  | .sendR _ data => dataFits data
  | .sendS _ data => dataFits data
  | .recv _ data => dataFits data
  | .softReset _ data => dataFits data
  | .hardReset _ data => dataFits data
  | .clearSeq _ data => dataFits data
  | .endExchange _ data => dataFits data
  | .rdreg _ data => dataFits data
  | .wrreg _ data => dataFits data
  | .readBuf _ data => dataFits data
  | .illegal opc _ data => !definedOpcodes.contains opc && dataFits data
  | .iBlock _ _ _ => true
  | .rBlockNoError _ _ _ => true
  | .rBlockCrcError _ _ _ => true
  | .rBlockOtherError _ _ _ => true
  | .rBlockUnnamedError _ _ _ => true
  | .sResyncRequest => true
  | .sResyncResponse => true
  | .sSetIfsRequest => true
  | .sSetIfsResponse => true
  | .sAbortRequest => true
  | .sAbortResponse => true
  | .sWtxRequest => true
  | .sWtxResponse => true
  | .sEoaRequest => true
  | .sEoaResponse => true
  | .sResetRequest => true
  | .sResetResponse => true
  | .sAtrRequest => true
  | .sAtrResponse => true
  | .sSoftResetRequest => true
  | .sSoftResetResponse => true
  | .sUnnamed _ type => !namedTypes.contains type

/-- The layer an instruction belongs to (30_encoding.md). -/
def Instr.layer : Instr → Layer
  | .crcCalc _ _ => .command
  | .frameEncode _ _ => .command
  | .frameDecode _ _ => .command
  | .sendI _ _ => .command
  | .sendR _ _ => .command
  | .sendS _ _ => .command
  | .recv _ _ => .command
  | .softReset _ _ => .command
  | .hardReset _ _ => .command
  | .clearSeq _ _ => .command
  | .endExchange _ _ => .command
  | .rdreg _ _ => .command
  | .wrreg _ _ => .command
  | .readBuf _ _ => .command
  | .illegal _ _ _ => .command
  | .iBlock _ _ _ => .block
  | .rBlockNoError _ _ _ => .block
  | .rBlockCrcError _ _ _ => .block
  | .rBlockOtherError _ _ _ => .block
  | .rBlockUnnamedError _ _ _ => .block
  | .sResyncRequest => .block
  | .sResyncResponse => .block
  | .sSetIfsRequest => .block
  | .sSetIfsResponse => .block
  | .sAbortRequest => .block
  | .sAbortResponse => .block
  | .sWtxRequest => .block
  | .sWtxResponse => .block
  | .sEoaRequest => .block
  | .sEoaResponse => .block
  | .sResetRequest => .block
  | .sResetResponse => .block
  | .sAtrRequest => .block
  | .sAtrResponse => .block
  | .sSoftResetRequest => .block
  | .sSoftResetResponse => .block
  | .sUnnamed _ _ => .block

end Sys2Proof
end

