-- ==== Sys2Proof/Decode.lean ====
section
/-!
DEFINITION. The decoder and the encoder of both layers.

Commands (30_encoding.md R101): the port sees a stream of bytes, `OPC ARG DLEN_HI DLEN_LO` and DLEN bytes of DATA; DLEN alone
says where a frame ends, for an illegal opcode too (R297). Decoding rejects only a stream that does not hold a whole frame
yet, by name. Blocks (R110 to R116): every one of the 256 PCB bytes is one row.
-/

namespace Sys2Proof

/-! ## Byte order of the host port (20_memory.md R76) -/

/-- A 16-bit field, most significant byte first. -/
def be16 (hi lo : Byte) : Nat := hi.toNat * 256 + lo.toNat

/-- The two bytes of a 16-bit field, most significant first. -/
def toBe16 (n : Nat) : List Byte := [BitVec.ofNat 8 (n / 256), BitVec.ofNat 8 n]

/-- The four bytes of a 32-bit value, most significant first. -/
def toBe32 (v : Word) : List Byte :=
  [v.extractLsb' 24 8, v.extractLsb' 16 8, v.extractLsb' 8 8, v.extractLsb' 0 8]

/-! ## The command layer -/

/-- Why a byte stream holds no command frame: the port goes on waiting (R101). -/
inductive DecodeReject where
  /-- Fewer than the four header bytes are there. -/
  | headerIncomplete
  /-- Fewer than DLEN bytes of DATA are there. -/
  | dataIncomplete
deriving DecidableEq, Repr

/-- The instruction of a complete frame by its opcode (R104); every other opcode is ILLEGAL (R297). -/
def ofOpcode (opc arg : Byte) (data : List Byte) : Instr :=
  if opc = 0x01#8 then .crcCalc arg data
  else if opc = 0x02#8 then .frameEncode arg data
  else if opc = 0x03#8 then .frameDecode arg data
  else if opc = 0x10#8 then .sendI arg data
  else if opc = 0x11#8 then .sendR arg data
  else if opc = 0x12#8 then .sendS arg data
  else if opc = 0x13#8 then .recv arg data
  else if opc = 0x14#8 then .softReset arg data
  else if opc = 0x15#8 then .hardReset arg data
  else if opc = 0x20#8 then .clearSeq arg data
  else if opc = 0x21#8 then .endExchange arg data
  else if opc = 0x30#8 then .rdreg arg data
  else if opc = 0x31#8 then .wrreg arg data
  else if opc = 0x32#8 then .readBuf arg data
  else .illegal opc arg data

/-- The first command frame of a byte stream and the bytes after it (R101). -/
def decodeCommand (bytes : List Byte) : Except DecodeReject (Instr × List Byte) :=
  match bytes with
  | opc :: arg :: hi :: lo :: rest =>
    if rest.length < be16 hi lo then .error .dataIncomplete
    else .ok (ofOpcode opc arg (rest.take (be16 hi lo)), rest.drop (be16 hi lo))
  | _ => .error .headerIncomplete

/-! ## The block layer -/

/-- The R-block row of an EE value (R112, R115). -/
def ofRBlock (nr ignored5 : Bool) (ignored32 ee : BitVec 2) : Instr :=
  if ee = 0#2 then .rBlockNoError nr ignored5 ignored32
  else if ee = 1#2 then .rBlockCrcError nr ignored5 ignored32
  else if ee = 2#2 then .rBlockOtherError nr ignored5 ignored32
  else .rBlockUnnamedError nr ignored5 ignored32

/-- The S-block row of a direction and a type (R113, R114, R116). -/
def ofSBlock (dir : Bool) (type : BitVec 5) : Instr :=
  if type = 0#5 then (if dir then .sResyncResponse else .sResyncRequest)
  else if type = 1#5 then (if dir then .sSetIfsResponse else .sSetIfsRequest)
  else if type = 2#5 then (if dir then .sAbortResponse else .sAbortRequest)
  else if type = 3#5 then (if dir then .sWtxResponse else .sWtxRequest)
  else if type = 5#5 then (if dir then .sEoaResponse else .sEoaRequest)
  else if type = 6#5 then (if dir then .sResetResponse else .sResetRequest)
  else if type = 7#5 then (if dir then .sAtrResponse else .sAtrRequest)
  else if type = 15#5 then (if dir then .sSoftResetResponse else .sSoftResetRequest)
  else .sUnnamed dir type

/-- The row of a PCB byte: bit 7 is tested first, then bit 6 (R110). -/
def decodeBlock (pcb : Byte) : Instr :=
  if pcb.getLsbD 7 = false then .iBlock (pcb.getLsbD 6) (pcb.getLsbD 5) (pcb.extractLsb' 0 5)
  else if pcb.getLsbD 6 = false then
    ofRBlock (pcb.getLsbD 4) (pcb.getLsbD 5) (pcb.extractLsb' 2 2) (pcb.extractLsb' 0 2)
  else ofSBlock (pcb.getLsbD 5) (pcb.extractLsb' 0 5)

/-! ## The encoder -/

/-- A command frame (R101). -/
def commandFrame (opc arg : Byte) (data : List Byte) : List Byte :=
  opc :: arg :: (toBe16 data.length ++ data)

/-- The PCB of an I-block row, bit 7 first (R111). -/
def iBlockPcb (ns m : Bool) (ignored : BitVec 5) : Byte :=
  0#1 ++ BitVec.ofBool ns ++ BitVec.ofBool m ++ ignored

/-- The PCB of an R-block row, bit 7 first (R112). -/
def rBlockPcb (nr ignored5 : Bool) (ignored32 ee : BitVec 2) : Byte :=
  0b10#2 ++ BitVec.ofBool ignored5 ++ BitVec.ofBool nr ++ ignored32 ++ ee

/-- The PCB of an S-block row, bit 7 first (R113). -/
def sBlockPcb (dir : Bool) (type : BitVec 5) : Byte :=
  0b11#2 ++ BitVec.ofBool dir ++ type

/-- The bytes of an instruction: a whole command frame, or one PCB byte. -/
def encode : Instr → List Byte
  | .crcCalc arg data => commandFrame 0x01#8 arg data
  | .frameEncode arg data => commandFrame 0x02#8 arg data
  | .frameDecode arg data => commandFrame 0x03#8 arg data
  | .sendI arg data => commandFrame 0x10#8 arg data
  | .sendR arg data => commandFrame 0x11#8 arg data
  | .sendS arg data => commandFrame 0x12#8 arg data
  | .recv arg data => commandFrame 0x13#8 arg data
  | .softReset arg data => commandFrame 0x14#8 arg data
  | .hardReset arg data => commandFrame 0x15#8 arg data
  | .clearSeq arg data => commandFrame 0x20#8 arg data
  | .endExchange arg data => commandFrame 0x21#8 arg data
  | .rdreg arg data => commandFrame 0x30#8 arg data
  | .wrreg arg data => commandFrame 0x31#8 arg data
  | .readBuf arg data => commandFrame 0x32#8 arg data
  | .illegal opc arg data => commandFrame opc arg data
  | .iBlock ns m ignored => [iBlockPcb ns m ignored]
  | .rBlockNoError nr i5 i32 => [rBlockPcb nr i5 i32 0#2]
  | .rBlockCrcError nr i5 i32 => [rBlockPcb nr i5 i32 1#2]
  | .rBlockOtherError nr i5 i32 => [rBlockPcb nr i5 i32 2#2]
  | .rBlockUnnamedError nr i5 i32 => [rBlockPcb nr i5 i32 3#2]
  | .sResyncRequest => [sBlockPcb false 0#5]
  | .sResyncResponse => [sBlockPcb true 0#5]
  | .sSetIfsRequest => [sBlockPcb false 1#5]
  | .sSetIfsResponse => [sBlockPcb true 1#5]
  | .sAbortRequest => [sBlockPcb false 2#5]
  | .sAbortResponse => [sBlockPcb true 2#5]
  | .sWtxRequest => [sBlockPcb false 3#5]
  | .sWtxResponse => [sBlockPcb true 3#5]
  | .sEoaRequest => [sBlockPcb false 5#5]
  | .sEoaResponse => [sBlockPcb true 5#5]
  | .sResetRequest => [sBlockPcb false 6#5]
  | .sResetResponse => [sBlockPcb true 6#5]
  | .sAtrRequest => [sBlockPcb false 7#5]
  | .sAtrResponse => [sBlockPcb true 7#5]
  | .sSoftResetRequest => [sBlockPcb false 15#5]
  | .sSoftResetResponse => [sBlockPcb true 15#5]
  | .sUnnamed dir type => [sBlockPcb dir type]

/-! ## The opcode table's words -/

/-- The command frame of a table word (log 14): bits 31..0 are the header, OPC in bits 31..24 (the first byte on the port),
and the DATA bytes count on from bit 32. A word of 32 bits thus has DATA of zeros. -/
def frameOfWord (w : Nat) : List Byte :=
  let header : Word := BitVec.ofNat 32 w
  toBe32 header ++
    (List.range (header.extractLsb' 0 16).toNat).map fun k => BitVec.ofNat 8 (w >>> (32 + 8 * k))

/-- The instruction the decoder reads from a table word: a PCB row has 8 bits, a command row 32. -/
def decodeTableWord (nbits w : Nat) : Option Instr :=
  if nbits ≤ 8 then some (decodeBlock (BitVec.ofNat 8 w))
  else if nbits < 32 then none
  else match decodeCommand (frameOfWord w) with
    | .ok (i, _) => some i
    | .error _ => none

end Sys2Proof
end

