-- ==== Sys2Proof/Machine/State.lean ====
section
/-!
DEFINITION. The state of one framer (10_state.md R31, R49), what a step can answer, and the state after reset.
-/

namespace Sys2Proof.Machine

/-- The completion statuses (60_exceptions.md R320). -/
inductive Status where
  | ok
  | errTransport
  | errNackTimeout
  | errProtoLen
  | errProtoCrc
  | errProtoPcb
  | errProtoNr
  | errRetxExhausted
  | errWtxLimit
  | errIllegalCmd
  | errParam
  | errReg
deriving DecidableEq, Repr

/-- A response frame's content: STATUS and RDATA (R102). -/
structure Response where
  status : Status
  data : List Byte
deriving DecidableEq, Repr

/-- What the bus trace records (43_arbiter.md R202), and the waits, which show in it by their position (R378). -/
inductive BusEvent where
  /-- Wait(SEGT_US), before an attempt (R206). -/
  | guardWait (us : BitVec 16)
  /-- Wait(MPOT_US), between a NACKed attempt and the next (R206). -/
  | pollWait (us : BitVec 16)
  /-- One attempt: direction, I2C_ADDR, length, the data written (none for a read), the answer. -/
  | attempt (dir : BusDir) (addr : BitVec 7) (n : Nat) (data : List Byte) (answer : BusAnswer)
deriving DecidableEq, Repr

/-- The bus port (43_arbiter.md R200): the peer's coming answers as far as they are written down, how many answers have been
drawn from the free oracle after them (log 3), and the trace so far, oldest first (log 1). -/
structure Link where
  answers : List BusAnswer
  draws : Nat
  trace : List BusEvent
deriving DecidableEq, Repr

/-- LAST_RX: the header of the last frame that passed its CRC check (R43). -/
structure LastRx where
  nad : Byte
  pcb : Byte
  len : Byte
deriving DecidableEq, Repr

/-- The commands that call RecvBlock (R238, R246, R270, R272). -/
inductive Caller where
  /-- RECV (R246). -/
  | recv
  /-- The token check of a chained SEND_I (R238). -/
  | token
  /-- SOFT_RESET (R270). -/
  | softReset
  /-- HARD_RESET (R272). -/
  | hardReset
deriving DecidableEq, Repr

/-- A receive in progress (R48, R251): the command it serves, and how many re-entries are still allowed, N − r. -/
structure Receive where
  caller : Caller
  left : Nat
deriving DecidableEq, Repr

/-- The state. The first fifteen fields are the spec's record (R31); `params` are the build-time parameters (R7, log 5);
`receiving` is the transient state of R48 (log 6); the others are the model's own: the inputs from the host, the reset input
and the peer, and the observations (log 1, 2, 3, 8, 9). -/
structure State where
  ns : Bool
  nr : Bool
  latch : Bool
  txbuf : List Byte
  txlen : Nat
  rxbuf : List Byte
  rxlen : Nat
  atrbuf : List Byte
  atrlen : Nat
  segtUs : BitVec 16
  mpotUs : BitVec 16
  bwtMs : BitVec 16
  i2cAddr : BitVec 7
  lastRx : LastRx
  nadMismatch : Bool
  params : Params
  receiving : Option Receive
  port : List Byte
  resetPin : Bool
  link : Link
  echoDraws : Nat
  out : List Response
deriving DecidableEq, Repr

/-- Faults. There are none: every error of the block is a completion status of the command that met it (R320, R324), every
command is legal in every state (R375) and terminates (R380), so nothing stops the machine (log 15). -/
inductive Fault where
deriving DecidableEq, Repr

/-- Refusals. -/
inductive Refusal where
  /-- Raised by an arm of `exec` whose instruction has no meaning yet; no arm raises it now. Safe: nothing is claimed of it. -/
  | notModelled (mnemonic : String)
deriving DecidableEq, Repr

/-- A buffer of n bytes, all zero. -/
def zeros (n : Nat) : List Byte := List.replicate n 0#8

/-- The machine after reset (R49, R360), with the spec's default parameters (R7), no host input, no peer answer written down,
and nothing observed yet. -/
def State.reset : State where
  ns := false
  nr := false
  latch := false
  txbuf := zeros Config.frameBytes
  txlen := 0
  rxbuf := zeros Config.frameBytes
  rxlen := 0
  atrbuf := zeros Config.atrBytes
  atrlen := 0
  segtUs := 10#16
  mpotUs := 1000#16
  bwtMs := 1000#16
  i2cAddr := 0#7
  lastRx := ⟨0#8, 0#8, 0#8⟩
  nadMismatch := false
  params := ⟨.perSend, .bypass⟩
  receiving := none
  port := []
  resetPin := false
  link := ⟨[], 0, []⟩
  echoDraws := 0
  out := []

end Sys2Proof.Machine
end

