-- ==== Sys2Proof/Machine/Operands.lean ====
section
/-!
DEFINITION. Operand forms: bytes of a byte sequence, the big-endian value of WRREG, PCB packing and parsing (42_codec.md R170
to R174), and the legality checks of a command frame in their order (30_encoding.md R103, R106).
-/

namespace Sys2Proof.Machine

/-- `s[i]` of a byte sequence (00_scope.md R11). -/
def byteAt (s : List Byte) (i : Nat) : Byte := s.getD i 0#8

/-- WRREG's value: DATA[0..4), most significant byte first (R117, R294). -/
def wrregValue (data : List Byte) : Word :=
  byteAt data 0 ++ byteAt data 1 ++ byteAt data 2 ++ byteAt data 3

/-! ## PCB packing (R170 to R172) -/

/-- A one-bit field as a byte. -/
def bitByte (b : Bool) : Byte := (BitVec.ofBool b).setWidth 8

/-- pack_I(ns, m) (R170). -/
def packI (ns m : Bool) : Byte := 0x00#8 ||| (bitByte ns <<< 6) ||| (bitByte m <<< 5)

/-- pack_R(nr, ee) (R171). -/
def packR (nr : Bool) (ee : BitVec 2) : Byte := 0x80#8 ||| (bitByte nr <<< 4) ||| ee.setWidth 8

/-- pack_S(dir, type) (R172): dir 0 is a request, dir 1 a response. -/
def packS (dir : Bool) (type : BitVec 5) : Byte := 0xC0#8 ||| (bitByte dir <<< 5) ||| type.setWidth 8

/-! ## PCB parsing (R173, R174) -/

/-- The parsed forms of a PCB (R173). -/
inductive Parsed where
  | iBlock (ns m : Bool)
  | rBlock (nr : Bool) (ee : BitVec 2)
  | sBlock (dir : Bool) (type : BitVec 5)
deriving DecidableEq, Repr

/-- classify(pcb) (R173): bit 7 first, then bit 6; the bits not named are ignored. -/
def classify (pcb : Byte) : Parsed :=
  if pcb.getLsbD 7 = false then .iBlock (pcb.getLsbD 6) (pcb.getLsbD 5)
  else if pcb.getLsbD 6 = false then .rBlock (pcb.getLsbD 4) (pcb.extractLsb' 0 2)
  else .sBlock (pcb.getLsbD 5) (pcb.extractLsb' 0 5)

/-- is_wtx_request(pcb) (R174). -/
def isWtxRequest (pcb : Byte) : Bool := classify pcb == .sBlock false 3#5

/-- is_r_error(pcb) (R174): an R-block with EE ≠ 0. -/
def isRError (pcb : Byte) : Bool :=
  match classify pcb with
  | .rBlock _ ee => ee != 0#2
  | _ => false

/-- is_i(pcb) (R174). -/
def isI (pcb : Byte) : Bool :=
  match classify pcb with
  | .iBlock _ _ => true
  | _ => false

/-- is_r(pcb) (R174). -/
def isR (pcb : Byte) : Bool :=
  match classify pcb with
  | .rBlock _ _ => true
  | _ => false

/-- is_s(pcb) (R174). -/
def isS (pcb : Byte) : Bool :=
  match classify pcb with
  | .sBlock _ _ => true
  | _ => false

/-! ## Legality of a command frame (R103, R106)

Each check answers the error the command completes with, or none when the frame is legal. The order is R103's: ARG, register
number, DLEN, register value, frame length. -/

/-- Reserved ARG bits, then the DLEN range (R103 steps 2 and 4). -/
def argThenLen (reserved : Byte) (least most : Nat) (arg : Byte) (data : List Byte) : Option Status :=
  if arg &&& reserved ≠ 0#8 then some .errParam
  else if data.length < least ∨ most < data.length then some .errParam
  else none

/-- CRC_CALC: ARG all reserved, DLEN 0..65535. -/
def checkCrcCalc (arg : Byte) (data : List Byte) : Option Status := argThenLen 0xFF#8 0 65535 arg data

/-- FRAME_ENCODE: ARG is the PCB, DLEN 0..254. -/
def checkFrameEncode (arg : Byte) (data : List Byte) : Option Status := argThenLen 0x00#8 0 Config.maxInf arg data

/-- FRAME_DECODE: ARG all reserved, DLEN 5..259, then DATA[2] ≤ 254 and DLEN = 5 + DATA[2] (R103 step 6). -/
def checkFrameDecode (arg : Byte) (data : List Byte) : Option Status :=
  match argThenLen 0xFF#8 5 Config.frameBytes arg data with
  | some e => some e
  | none =>
    if Config.maxInf < (byteAt data 2).toNat ∨ data.length ≠ 5 + (byteAt data 2).toNat then some .errParam else none

/-- SEND_I: ARG[5] is M, the rest reserved; DLEN 0..254. -/
def checkSendI (arg : Byte) (data : List Byte) : Option Status := argThenLen 0xDF#8 0 Config.maxInf arg data

/-- SEND_R: ARG[4] is N(R), ARG[1:0] is EE and 3 is refused, the rest reserved; no DATA. -/
def checkSendR (arg : Byte) (data : List Byte) : Option Status :=
  if arg.extractLsb' 0 2 = 3#2 then some .errParam else argThenLen 0xEC#8 0 0 arg data

/-- SEND_S: ARG[5] is the direction, ARG[4:0] the type, the rest reserved; DLEN 0..254. -/
def checkSendS (arg : Byte) (data : List Byte) : Option Status := argThenLen 0xC0#8 0 Config.maxInf arg data

/-- RECV, SOFT_RESET, HARD_RESET, CLEAR_SEQ and END_EXCHANGE: ARG all reserved, no DATA. -/
def checkPlain (arg : Byte) (data : List Byte) : Option Status := argThenLen 0xFF#8 0 0 arg data

/-- RDREG: the register is one of 0x00..0x0B (R45, R293), then no DATA. -/
def checkRdreg (arg : Byte) (data : List Byte) : Option Status :=
  if 0x0B < arg.toNat then some .errReg else argThenLen 0x00#8 0 0 arg data

/-- The writable registers (R294). -/
def writableRegs : List Byte := [0x01#8, 0x02#8, 0x03#8, 0x05#8, 0x09#8]

/-- Whether a value is illegal for a writable register (R38 to R42, R294). -/
def illegalValue (reg : Byte) (v : Word) : Bool :=
  if reg = 0x01#8 then 0xFFFF < v.toNat
  else if reg = 0x02#8 then v = 0#32 ∨ 0xFFFF < v.toNat
  else if reg = 0x03#8 then v = 0#32 ∨ 0xFFFF < v.toNat
  else if reg = 0x05#8 then 0x7F < v.toNat
  else false

/-- WRREG: a writable register, then DLEN = 4, then a legal value (R103 steps 3, 4 and 5). -/
def checkWrreg (arg : Byte) (data : List Byte) : Option Status :=
  if !writableRegs.contains arg then some .errReg
  else match argThenLen 0x00#8 4 4 arg data with
    | some e => some e
    | none => if illegalValue arg (wrregValue data) then some .errParam else none

/-- READ_BUF: ARG is 0, 1 or 2, then no DATA. -/
def checkReadBuf (arg : Byte) (data : List Byte) : Option Status :=
  if 2 < arg.toNat then some .errParam else argThenLen 0x00#8 0 0 arg data

end Sys2Proof.Machine
end

