-- ==== Sys2Proof/Machine/Flags.lean ====
section
/-!
DEFINITION. Flag and register computations: the status codes and their classes (60_exceptions.md R320, R321), MAX_RETRIES
(10_state.md R41), the register images (R45 to R47), and the rules that set and clear LATCH and NAD_MISMATCH (R34, R44).
-/

namespace Sys2Proof.Machine

/-! ## Status codes (R320, R321) -/

/-- The STATUS byte of a status (R320). -/
def Status.code : Status → Byte
  | .ok => 0x00#8
  | .errTransport => 0x01#8
  | .errNackTimeout => 0x02#8
  | .errProtoLen => 0x03#8
  | .errProtoCrc => 0x04#8
  | .errProtoPcb => 0x05#8
  | .errProtoNr => 0x06#8
  | .errRetxExhausted => 0x07#8
  | .errWtxLimit => 0x08#8
  | .errIllegalCmd => 0x10#8
  | .errParam => 0x11#8
  | .errReg => 0x12#8

/-- The source's error kind of a status, where it has one (R321). -/
def Status.sourceKind : Status → Option Nat
  | .ok => none
  | .errTransport => some 2
  | .errNackTimeout => some 3
  | .errProtoLen => some 4
  | .errProtoCrc => some 4
  | .errProtoPcb => some 4
  | .errProtoNr => some 4
  | .errRetxExhausted => some 5
  | .errWtxLimit => none
  | .errIllegalCmd => none
  | .errParam => none
  | .errReg => none

/-- The timeout-class statuses. R321 calls ERR_RETX_EXHAUSTED and ERR_WTX_LIMIT so, and says of no other status whether it is.
DESIGN CHOICE (log 19), safe: ERR_NACK_TIMEOUT is in the class, as R321 names its kind "Transport timeout", and ERR_TRANSPORT is
not, although R321 and R209 say that the former is "treated identically to transport error". No meaning and no statement reads
this function. -/
def Status.timeoutClass : Status → Bool
  | .ok => false
  | .errTransport => false
  | .errNackTimeout => true
  | .errProtoLen => false
  | .errProtoCrc => false
  | .errProtoPcb => false
  | .errProtoNr => false
  | .errRetxExhausted => true
  | .errWtxLimit => true
  | .errIllegalCmd => false
  | .errParam => false
  | .errReg => false

/-! ## MAX_RETRIES and the register images -/

/-- MAX_RETRIES = max(1, (BWT_MS * 1000) / MPOT_US), floor division (R41). -/
def maxRetries (s : State) : Nat := max 1 (s.bwtMs.toNat * 1000 / s.mpotUs.toNat)

/-- SEQ: NS | (NR << 1) | (LATCH << 2) (R46). -/
def seqImage (s : State) : Word :=
  0#29 ++ BitVec.ofBool s.latch ++ BitVec.ofBool s.nr ++ BitVec.ofBool s.ns

/-- LAST_RX: NAD in bits 23:16, PCB in 15:8, LEN in 7:0 (R43). -/
def lastRxImage (s : State) : Word := 0#8 ++ s.lastRx.nad ++ s.lastRx.pcb ++ s.lastRx.len

/-- FLAGS: NAD_MISMATCH in bit 0 (R44). -/
def flagsImage (s : State) : Word := (BitVec.ofBool s.nadMismatch).setWidth 32

/-- PARAMS: P_LATCH_CLEAR in bit 0, P_WTX_CACHE in bit 1 (R45, R47). -/
def paramsImage (p : Params) : Word :=
  0#30 ++ BitVec.ofBool (p.wtxCache == .overwrite) ++ BitVec.ofBool (p.latchClear == .perExchange)

/-- The value of a register (R45); the registers are 0x00..0x0B. -/
def readReg (reg : Byte) (s : State) : Word :=
  if reg = 0x00#8 then seqImage s
  else if reg = 0x01#8 then s.segtUs.setWidth 32
  else if reg = 0x02#8 then s.mpotUs.setWidth 32
  else if reg = 0x03#8 then s.bwtMs.setWidth 32
  else if reg = 0x04#8 then BitVec.ofNat 32 (maxRetries s)
  else if reg = 0x05#8 then s.i2cAddr.setWidth 32
  else if reg = 0x06#8 then BitVec.ofNat 32 s.txlen
  else if reg = 0x07#8 then BitVec.ofNat 32 s.rxlen
  else if reg = 0x08#8 then lastRxImage s
  else if reg = 0x09#8 then flagsImage s
  else if reg = 0x0A#8 then BitVec.ofNat 32 s.atrlen
  else paramsImage s.params

/-- A legal write of a writable register (R294); FLAGS is write-1-to-clear (R44). -/
def writeReg (reg : Byte) (v : Word) (s : State) : State :=
  if reg = 0x01#8 then { s with segtUs := v.setWidth 16 }
  else if reg = 0x02#8 then { s with mpotUs := v.setWidth 16 }
  else if reg = 0x03#8 then { s with bwtMs := v.setWidth 16 }
  else if reg = 0x05#8 then { s with i2cAddr := v.setWidth 7 }
  else if reg = 0x09#8 then (if v.getLsbD 0 then { s with nadMismatch := false } else s)
  else s

/-! ## LATCH and NAD_MISMATCH -/

/-- LATCH after a successful send that is no retransmission (R232, R233). -/
def latchAfterSend (s : State) : Bool :=
  match s.params.latchClear with
  | .perSend => false
  | .perExchange => s.latch

/-- NAD_MISMATCH after a received frame's NAD test: sticky (R44, R250). -/
def nadFlagAfter (nadOk : Bool) (s : State) : Bool := s.nadMismatch || !nadOk

end Sys2Proof.Machine
end

