-- ==== Sys2Proof/Machine/Ops.lean ====
section
/-!
DEFINITION. The shared operations: the CRC (41_crc.md), frames (42_codec.md), the buffers, the bus port and the NACK-retry
arbiter (43_arbiter.md), the engine's internal procedures (44_engine.md), and the completion of a command with or without an
error (60_exceptions.md R324).
-/

namespace Sys2Proof.Machine

/-! ## The CRC function (R150) -/

/-- One of the eight iterations: shift right, XOR 0x8408 if the low bit was set. -/
def crcBit (c : Crc) : Crc := if c.getLsbD 0 then (c >>> 1) ^^^ 0x8408#16 else c >>> 1

/-- One byte: XOR into the low byte, then eight iterations. -/
def crcByte (c : Crc) (b : Byte) : Crc :=
  crcBit (crcBit (crcBit (crcBit (crcBit (crcBit (crcBit (crcBit (c ^^^ b.setWidth 16))))))))

/-- The CRC register after a byte sequence and the final XOR, before the byte swap. -/
def crcUnswapped (s : List Byte) : Crc := s.foldl crcByte 0xFFFF#16 ^^^ 0xFFFF#16

/-- The byte swap. -/
def swapBytes (c : Crc) : Crc := c.extractLsb' 0 8 ++ c.extractLsb' 8 8

/-- crc16(s) (R150). -/
def crc16 (s : List Byte) : Crc := swapBytes (crcUnswapped s)

/-- Bits 15:8 of a CRC value, the byte sent first (R74). -/
def crcHi (v : Crc) : Byte := v.extractLsb' 8 8

/-- Bits 7:0 of a CRC value, the byte sent second (R74). -/
def crcLo (v : Crc) : Byte := v.extractLsb' 0 8

/-! ## Frames (R176, R177) -/

/-- NAD, PCB, LEN and INF: what the CRC covers (R108). -/
def frameBody (nad pcb : Byte) (inf : List Byte) : List Byte := nad :: pcb :: BitVec.ofNat 8 inf.length :: inf

/-- build_frame(nad, pcb, inf) (R176); its callers guarantee len(inf) ≤ 254. -/
def buildFrame (nad pcb : Byte) (inf : List Byte) : List Byte :=
  frameBody nad pcb inf ++ [crcHi (crc16 (frameBody nad pcb inf)), crcLo (crc16 (frameBody nad pcb inf))]

/-- LEN of a frame, byte 2, as a number. -/
def frameLen (f : List Byte) : Nat := (byteAt f 2).toNat

/-- verify_frame(f) = (nad_ok, crc_ok) (R177): the received CRC is read high byte first (R75). -/
def verifyFrame (f : List Byte) : Bool × Bool :=
  (byteAt f 0 == Config.nadPeer,
   (byteAt f (3 + frameLen f) ++ byteAt f (4 + frameLen f) : BitVec 16) == crc16 (f.take (3 + frameLen f)))

/-! ## Buffers (R35 to R37, R72) -/

/-- A buffer with the bytes `d` stored from offset `off` on. -/
def bufWrite (b : List Byte) (off : Nat) (d : List Byte) : List Byte := b.take off ++ d ++ b.drop (off + d.length)

/-- A buffer of `size` bytes that holds `d` and zeros after it. -/
def bufFill (size : Nat) (d : List Byte) : List Byte := d ++ zeros (size - d.length)

/-- The valid bytes of TXBUF: the retransmit cache (R35). -/
def txFrame (s : State) : List Byte := s.txbuf.take s.txlen

/-- The valid bytes of RXBUF (R36). -/
def rxFrame (s : State) : List Byte := s.rxbuf.take s.rxlen

/-- The valid bytes of ATRBUF (R37). -/
def atrBytes (s : State) : List Byte := s.atrbuf.take s.atrlen

/-! ## Completion of a command (R102, R324) -/

/-- The command completes: one response frame goes to the host. -/
def complete (st : Status) (data : List Byte) (s : State) : State := { s with out := s.out ++ [⟨st, data⟩] }

/-- ERROR COMPLETION ("trap entry", R324): the command stops here, the response is STATUS = code and RLEN = 0, every write made
so far is kept, and no other state records the error. There is no return from it: the next command runs normally (R325). -/
def raise (e : Status) (s : State) : State := complete e [] s

/-- The bytes of a response frame: STATUS, RLEN big-endian, RDATA (R102). -/
def Response.bytes (r : Response) : List Byte := r.status.code :: (toBe16 r.data.length ++ r.data)

/-! ## The bus port (R200 to R202) -/

/-- The answer of R200 that a peer's choice amounts to for an attempt of n bytes: a read is answered ACK with exactly n bytes,
a write with none, SHORT(k) has k < n (log 4). -/
def shapeAnswer (dir : BusDir) (n : Nat) (a : BusAnswer) : BusAnswer :=
  match a with
  | .ack d =>
    match dir with
    | .write => .ack []
    | .read => if n ≤ d.length then .ack (d.take n) else .short d.length
  | .nack => .nack
  | .short k => if k < n then .short k else .fault
  | .fault => .fault

/-- The peer's next choice: the next one written down, else a free one (log 3). -/
def nextChoice (addr : BitVec 7) (dir : BusDir) (n : Nat) (data : List Byte) (l : Link) : BusAnswer × Link :=
  match l.answers with
  | a :: rest => (a, { l with answers := rest })
  | [] => (Config.peerAnswer l.draws addr dir n data, { l with draws := l.draws + 1 })

/-- The trace with one more event. -/
def Link.record (l : Link) (e : BusEvent) : Link := { l with trace := l.trace ++ [e] }

/-- Bus(dir, n, data) (R200): one attempt, with its answer, recorded in the trace (R202). -/
def busAttempt (addr : BitVec 7) (dir : BusDir) (n : Nat) (data : List Byte) (l : Link) : BusAnswer × Link :=
  let (choice, l1) := nextChoice addr dir n data l
  let a := shapeAnswer dir n choice
  (a, l1.record (.attempt dir addr n data a))

/-- XferRetry(dir, n, data) (R205) with `left` attempts still allowed: status, bytes read, the port after. The state is only
read (R205 "State written: none by the arbiter itself"). -/
def xferRetry (s : State) (dir : BusDir) (n : Nat) (data : List Byte) : Nat → Link → Status × List Byte × Link
  | 0, l => (.errNackTimeout, [], l)
  | left + 1, l =>
    match busAttempt s.i2cAddr dir n data (l.record (.guardWait s.segtUs)) with
    | (.ack d, l1) => (.ok, d, l1)
    | (.nack, l1) => xferRetry s dir n data left (if left = 0 then l1 else l1.record (.pollWait s.mpotUs))
    | (.short _, l1) => (.errTransport, [], l1)
    | (.fault, l1) => (.errTransport, [], l1)

/-- A transfer of the block: XferRetry with MAX_RETRIES attempts, sampled at its start (R205, R207). -/
def xfer (dir : BusDir) (n : Nat) (data : List Byte) (s : State) : Status × List Byte × State :=
  match xferRetry s dir n data (maxRetries s) s.link with
  | (st, d, l) => (st, d, { s with link := l })

/-! ## The engine's internal procedures -/

/-- The frame built for a send, in TXBUF with zeros after it, and TXLEN (R232, R35). -/
def loadTx (pcb : Byte) (inf : List Byte) (s : State) : State :=
  { s with
    txbuf := bufFill Config.frameBytes (buildFrame Config.nadHost pcb inf)
    txlen := (buildFrame Config.nadHost pcb inf).length }

/-- FrameSend(pcb, inf) (R232): the frame is in TXBUF before it is written to the bus. -/
def frameSend (pcb : Byte) (inf : List Byte) (s : State) : Status × State :=
  let s1 := loadTx pcb inf s
  match xfer .write s1.txlen (txFrame s1) s1 with
  | (.ok, _, s2) => (.ok, { s2 with latch := latchAfterSend s2 })
  | (e, _, s2) => (e, s2)

/-- The checks of ReadBlock on the frame in RXBUF (R250): NAD, then CRC, then LAST_RX. -/
def acceptFrame (s : State) : Status × State :=
  let f := rxFrame s
  let s1 := { s with nadMismatch := nadFlagAfter (verifyFrame f).1 s }
  if (verifyFrame f).2 then (.ok, { s1 with lastRx := ⟨byteAt f 0, byteAt f 1, byteAt f 2⟩ })
  else (.errProtoCrc, s1)

/-- RXBUF zeroed at the start of a block read (R36). -/
def clearRx (s : State) : State := { s with rxbuf := zeros Config.frameBytes, rxlen := 0 }

/-- The bytes of a successful read stored in RXBUF from `off` on, and RXLEN behind them (R36). -/
def storeRx (off : Nat) (d : List Byte) (s : State) : State :=
  { s with rxbuf := bufWrite s.rxbuf off d, rxlen := off + d.length }

/-- ReadBlock() (R250): on OK the frame is RXBUF[0..RXLEN). -/
def readBlock (s : State) : Status × State :=
  match xfer .read 5 [] (clearRx s) with
  | (.ok, h, s1) =>
    let s2 := storeRx 0 h s1
    let len := frameLen s2.rxbuf
    if Config.maxInf < len then (.errProtoLen, s2)
    else if len = 0 then acceptFrame s2
    else match xfer .read len [] s2 with
      | (.ok, d, s3) => acceptFrame (storeRx 5 d s3)
      | (e, _, s3) => (e, s3)
  | (e, _, s1) => (e, s1)

/-- WtxRespond(e) (R256): S(WTX response) with INF = [e], past TXBUF or through it. -/
def wtxRespond (e : Byte) (s : State) : Status × State :=
  match s.params.wtxCache with
  | .bypass =>
    let w := buildFrame Config.nadHost (packS true 3#5) [e]
    match xfer .write 6 w s with
    | (st, _, s1) => (st, s1)
  | .overwrite => frameSend (packS true 3#5) [e] s

/-- Retransmit() (R258): the latch test, the latch, then the cached frame as it is. -/
def retransmit (s : State) : Status × State :=
  if s.latch then (.errRetxExhausted, s)
  else
    match xfer .write s.txlen (txFrame s) { s with latch := true } with
    | (st, _, s1) => (st, s1)

/-- The echo byte of a WTX request in RXBUF: INF[0], or a draw when LEN = 0 (R251). -/
def wtxEcho (s : State) : Byte × State :=
  if 1 ≤ frameLen s.rxbuf then (byteAt s.rxbuf 3, s)
  else (Config.echoByte s.echoDraws, { s with echoDraws := s.echoDraws + 1 })

/-- What RecvBlock does after one received block (R251): read another, or stop with a status. -/
inductive Pass where
  | again
  | done (st : Status)
deriving DecidableEq, Repr

/-- A WTX request in RecvBlock with `left` re-entries still allowed (R251): the bound, the echo byte, the response. -/
def passWtxRequest (left : Nat) (s : State) : Pass × State :=
  if left = 0 then (.done .errWtxLimit, s)
  else match wtxRespond (wtxEcho s).1 (wtxEcho s).2 with
    | (.ok, s1) => (.again, s1)
    | (e, s1) => (.done e, s1)

/-- An R-block with EE ≠ 0 in RecvBlock (R251): the bound, then the retransmit. -/
def passRError (left : Nat) (s : State) : Pass × State :=
  if left = 0 then (.done .errWtxLimit, s)
  else match retransmit s with
    | (.ok, s1) => (.again, s1)
    | (e, s1) => (.done e, s1)

/-- Every other block is returned (R251). -/
def passReturned (_left : Nat) (s : State) : Pass × State := (.done .ok, s)

/-- The two tests of RecvBlock on the PCB, in their order (R251). -/
def pass (pcb : Byte) (left : Nat) (s : State) : Pass × State :=
  if isWtxRequest pcb then passWtxRequest left s
  else if isRError pcb then passRError left s
  else passReturned left s

/-- RecvBlock() (R251) with `left` = N − r re-entries still allowed: on OK the frame returned is RXBUF[0..RXLEN). -/
def recvBlock (left : Nat) (s : State) : Status × State :=
  match readBlock s with
  | (.ok, s1) =>
    match pass (byteAt s1.rxbuf 1) left s1 with
    | (.done st, s2) => (st, s2)
    | (.again, s2) =>
      match left with
      | 0 => (.errWtxLimit, s2)   -- never reached: with left = 0 no pass answers `again`
      | l + 1 => recvBlock l s2
  | (e, s1) => (e, s1)

/-- TokenCheck's three tests on the returned PCB, in their order (R238): kind, EE, N(R) against the new N(S). -/
def tokenStatus (pcb : Byte) (ns : Bool) : Status :=
  if !isR pcb then .errProtoPcb
  else if pcb.extractLsb' 0 2 ≠ 0#2 then .errProtoPcb
  else if pcb.getLsbD 4 ≠ ns then .errProtoNr
  else .ok

/-- What a command does once its RecvBlock has ended with `st`, the returned block's PCB being `pcb`: RECV returns NAD, PCB, LEN
and INF (R246); the token check tests the PCB (R238); SOFT_RESET wants 0xEF and caches the INF (R270, R37); HARD_RESET wants
0xE6 and drops the INF (R272). -/
def finish (c : Caller) (st : Status) (pcb : Byte) (s : State) : State :=
  match st with
  | .ok =>
    match c with
    | .recv => complete .ok (s.rxbuf.take (3 + frameLen s.rxbuf)) s
    | .token => complete (tokenStatus pcb s.ns) [] s
    | .softReset =>
      if pcb ≠ packS true 15#5 then raise .errProtoPcb s
      else
        let len := frameLen s.rxbuf
        complete .ok []
          { s with atrbuf := bufFill Config.atrBytes ((s.rxbuf.drop 3).take len), atrlen := len }
    | .hardReset => if pcb ≠ packS true 6#5 then raise .errProtoPcb s else complete .ok [] s
  | e => raise e s

/-- A command's call of RecvBlock, run to its end, and what the command does after it. -/
def runReceive (c : Caller) (s : State) : State :=
  match recvBlock (maxRetries s) s with
  | (st, s1) => finish c st (byteAt s1.rxbuf 1) s1

/-- One block of a receive in progress, handled by its pass `h` (R251, log 6): the receive goes on, or it ends and its command
completes. Outside a receive the framer reads nothing from the bus, so a block there changes nothing (R207, R211, log 7). -/
def receiveBlock (h : Nat → State → Pass × State) (pcb : Byte) (s : State) : State :=
  match s.receiving with
  | none => s
  | some rc =>
    match h rc.left s with
    | (.again, s1) => { s1 with receiving := some { rc with left := rc.left - 1 } }
    | (.done st, s1) => finish rc.caller st pcb { s1 with receiving := none }

/-- The registers and buffers as reset leaves them (R49, R360); the parameters and what lies outside the block stay, and a
running command is abandoned without a response (R361, log 9). -/
def blockReset (s : State) : State :=
  { State.reset with
    params := s.params, port := s.port, link := s.link, echoDraws := s.echoDraws, out := s.out }

end Sys2Proof.Machine
end

