-- ==== Sys2Proof/Machine/Block.lean ====
section
/-!
DEFINITION. The wire blocks (the PCB rows of the opcode table): what the framer does when a block with that PCB arrives in a
receive (30_encoding.md R114, R115; 44_engine.md R251). The block itself is in RXBUF.
-/

namespace Sys2Proof.Machine

/-- I-block (R111): returned to the command that receives; bits 4:0 are ignored. -/
def execIBlock (ns m : Bool) (ignored : BitVec 5) (s : State) : Host.Outcome State Fault Refusal :=
  .next (receiveBlock passReturned (iBlockPcb ns m ignored) s)

/-- R-block with EE = 0 (R115): returned. -/
def execRBlockNoError (nr ignored5 : Bool) (ignored32 : BitVec 2) (s : State) : Host.Outcome State Fault Refusal :=
  .next (receiveBlock passReturned (rBlockPcb nr ignored5 ignored32 0#2) s)

/-- R-block with EE = 1 (R115): retransmit. -/
def execRBlockCrcError (nr ignored5 : Bool) (ignored32 : BitVec 2) (s : State) : Host.Outcome State Fault Refusal :=
  .next (receiveBlock passRError (rBlockPcb nr ignored5 ignored32 1#2) s)

/-- R-block with EE = 2 (R115): retransmit. -/
def execRBlockOtherError (nr ignored5 : Bool) (ignored32 : BitVec 2) (s : State) : Host.Outcome State Fault Refusal :=
  .next (receiveBlock passRError (rBlockPcb nr ignored5 ignored32 2#2) s)

/-- R-block with EE = 3 (R115): retransmit, the trigger being "non-zero EE". -/
def execRBlockUnnamedError (nr ignored5 : Bool) (ignored32 : BitVec 2) (s : State) : Host.Outcome State Fault Refusal :=
  .next (receiveBlock passRError (rBlockPcb nr ignored5 ignored32 3#2) s)

/-- S-block RESYNC request (R114): returned. -/
def execSResyncRequest (s : State) : Host.Outcome State Fault Refusal :=
  .next (receiveBlock passReturned (sBlockPcb false 0#5) s)

/-- S-block RESYNC response (R114): returned. -/
def execSResyncResponse (s : State) : Host.Outcome State Fault Refusal :=
  .next (receiveBlock passReturned (sBlockPcb true 0#5) s)

/-- S-block SET_IFS request (R114): returned. -/
def execSSetIfsRequest (s : State) : Host.Outcome State Fault Refusal :=
  .next (receiveBlock passReturned (sBlockPcb false 1#5) s)

/-- S-block SET_IFS response (R114): returned. -/
def execSSetIfsResponse (s : State) : Host.Outcome State Fault Refusal :=
  .next (receiveBlock passReturned (sBlockPcb true 1#5) s)

/-- S-block ABORT request (R114): returned. -/
def execSAbortRequest (s : State) : Host.Outcome State Fault Refusal :=
  .next (receiveBlock passReturned (sBlockPcb false 2#5) s)

/-- S-block ABORT response (R114): returned. -/
def execSAbortResponse (s : State) : Host.Outcome State Fault Refusal :=
  .next (receiveBlock passReturned (sBlockPcb true 2#5) s)

/-- S-block WTX request (R114, R256): answered automatically with the WTX response. -/
def execSWtxRequest (s : State) : Host.Outcome State Fault Refusal :=
  .next (receiveBlock passWtxRequest (sBlockPcb false 3#5) s)

/-- S-block WTX response (R114): returned. -/
def execSWtxResponse (s : State) : Host.Outcome State Fault Refusal :=
  .next (receiveBlock passReturned (sBlockPcb true 3#5) s)

/-- S-block EOA request (R114): returned. -/
def execSEoaRequest (s : State) : Host.Outcome State Fault Refusal :=
  .next (receiveBlock passReturned (sBlockPcb false 5#5) s)

/-- S-block EOA response (R114): returned. -/
def execSEoaResponse (s : State) : Host.Outcome State Fault Refusal :=
  .next (receiveBlock passReturned (sBlockPcb true 5#5) s)

/-- S-block RESET request (R114): returned. -/
def execSResetRequest (s : State) : Host.Outcome State Fault Refusal :=
  .next (receiveBlock passReturned (sBlockPcb false 6#5) s)

/-- S-block RESET response (R114): returned, and what HARD_RESET expects. -/
def execSResetResponse (s : State) : Host.Outcome State Fault Refusal :=
  .next (receiveBlock passReturned (sBlockPcb true 6#5) s)

/-- S-block ATR request (R114): returned. -/
def execSAtrRequest (s : State) : Host.Outcome State Fault Refusal :=
  .next (receiveBlock passReturned (sBlockPcb false 7#5) s)

/-- S-block ATR response (R114): returned. -/
def execSAtrResponse (s : State) : Host.Outcome State Fault Refusal :=
  .next (receiveBlock passReturned (sBlockPcb true 7#5) s)

/-- S-block SOFT_RESET request (R114): returned. -/
def execSSoftResetRequest (s : State) : Host.Outcome State Fault Refusal :=
  .next (receiveBlock passReturned (sBlockPcb false 15#5) s)

/-- S-block SOFT_RESET response (R114): returned, and what SOFT_RESET expects. -/
def execSSoftResetResponse (s : State) : Host.Outcome State Fault Refusal :=
  .next (receiveBlock passReturned (sBlockPcb true 15#5) s)

/-- S-block of an unnamed type (R114, R116): returned. -/
def execSUnnamed (dir : Bool) (type : BitVec 5) (s : State) : Host.Outcome State Fault Refusal :=
  .next (receiveBlock passReturned (sBlockPcb dir type) s)

end Sys2Proof.Machine
end

