-- ==== Sys2Proof/Machine/Codec.lean ====
section
/-!
DEFINITION. The codec family (42_codec.md): FRAME_ENCODE and FRAME_DECODE.
-/

namespace Sys2Proof.Machine

/-- FRAME_ENCODE (R180): the wire frame with NAD 0x5A, PCB = ARG and INF = DATA. -/
def execFrameEncode (arg : Byte) (data : List Byte) (s : State) : Host.Outcome State Fault Refusal :=
  .next (match checkFrameEncode arg data with
    | some e => raise e s
    | none => complete .ok (buildFrame Config.nadHost arg data) s)

/-- FRAME_DECODE (R182): NAD, PCB, LEN and INF of a frame whose CRC is right; the NAD is not tested. -/
def execFrameDecode (arg : Byte) (data : List Byte) (s : State) : Host.Outcome State Fault Refusal :=
  .next (match checkFrameDecode arg data with
    | some e => raise e s
    | none =>
      if (verifyFrame data).2 then complete .ok (data.take (3 + frameLen data)) s
      else raise .errProtoCrc s)

end Sys2Proof.Machine
end

