-- ==== Sys2Proof/Machine/Control.lean ====
section
/-!
DEFINITION. The state-control and register-access family (45_control.md): CLEAR_SEQ, END_EXCHANGE, RDREG, WRREG, READ_BUF,
and the illegal commands.
-/

namespace Sys2Proof.Machine

/-- CLEAR_SEQ (R290): N(S) = N(R) = 0. -/
def execClearSeq (arg : Byte) (data : List Byte) (s : State) : Host.Outcome State Fault Refusal :=
  .next (match checkPlain arg data with
    | some e => raise e s
    | none => complete .ok [] { s with ns := false, nr := false })

/-- END_EXCHANGE (R291): both frame buffers and the latch are cleared. -/
def execEndExchange (arg : Byte) (data : List Byte) (s : State) : Host.Outcome State Fault Refusal :=
  .next (match checkPlain arg data with
    | some e => raise e s
    | none =>
      complete .ok []
        { s with
          txbuf := zeros Config.frameBytes, txlen := 0, rxbuf := zeros Config.frameBytes, rxlen := 0, latch := false })

/-- RDREG (R293): the register's value, big-endian. -/
def execRdreg (arg : Byte) (data : List Byte) (s : State) : Host.Outcome State Fault Refusal :=
  .next (match checkRdreg arg data with
    | some e => raise e s
    | none => complete .ok (toBe32 (readReg arg s)) s)

/-- WRREG (R294): the named register takes the value. -/
def execWrreg (arg : Byte) (data : List Byte) (s : State) : Host.Outcome State Fault Refusal :=
  .next (match checkWrreg arg data with
    | some e => raise e s
    | none => complete .ok [] (writeReg arg (wrregValue data) s))

/-- READ_BUF (R295): the valid bytes of TXBUF (0), RXBUF (1) or ATRBUF (2). -/
def execReadBuf (arg : Byte) (data : List Byte) (s : State) : Host.Outcome State Fault Refusal :=
  .next (match checkReadBuf arg data with
    | some e => raise e s
    | none =>
      complete .ok (if arg = 0#8 then txFrame s else if arg = 1#8 then rxFrame s else atrBytes s) s)

/-- Illegal commands (R297): ERR_ILLEGAL_CMD whatever ARG and DATA are. -/
def execIllegal (_opc _arg : Byte) (_data : List Byte) (s : State) : Host.Outcome State Fault Refusal :=
  .next (raise .errIllegalCmd s)

end Sys2Proof.Machine
end

