-- ==== Sys2Proof/Machine/CrcFamily.lean ====
section
/-!
DEFINITION. The CRC family (41_crc.md): CRC_CALC.
-/

namespace Sys2Proof.Machine

/-- CRC_CALC (R155): the two bytes of crc16(DATA), high byte first; no state is written and the bus is not touched. -/
def execCrcCalc (arg : Byte) (data : List Byte) (s : State) : Host.Outcome State Fault Refusal :=
  .next (match checkCrcCalc arg data with
    | some e => raise e s
    | none => complete .ok [crcHi (crc16 data), crcLo (crc16 data)] s)

end Sys2Proof.Machine
end

