-- ==== Sys2Proof/Machine/Engine.lean ====
section
/-!
DEFINITION. The block engine family (44_engine.md): SEND_I, SEND_R, SEND_S, RECV, SOFT_RESET, HARD_RESET.
-/

namespace Sys2Proof.Machine

/-- SEND_I (R236): the PCB from the old N(S), the toggle, FrameSend, and for M = 1 the token check (R238). -/
def execSendI (arg : Byte) (data : List Byte) (s : State) : Host.Outcome State Fault Refusal :=
  .next (match checkSendI arg data with
    | some e => raise e s
    | none =>
      let m := arg.getLsbD 5
      match frameSend (packI s.ns m) data { s with ns := !s.ns } with
      | (.ok, s1) => if m then runReceive .token s1 else complete .ok [] s1
      | (e, s1) => raise e s1)

/-- SEND_R (R240): one R-block with the host's N(R) and EE, LEN = 0. -/
def execSendR (arg : Byte) (data : List Byte) (s : State) : Host.Outcome State Fault Refusal :=
  .next (match checkSendR arg data with
    | some e => raise e s
    | none =>
      match frameSend (packR (arg.getLsbD 4) (arg.extractLsb' 0 2)) [] s with
      | (.ok, s1) => complete .ok [] s1
      | (e, s1) => raise e s1)

/-- SEND_S (R242): one S-block with the host's direction, type and INF. -/
def execSendS (arg : Byte) (data : List Byte) (s : State) : Host.Outcome State Fault Refusal :=
  .next (match checkSendS arg data with
    | some e => raise e s
    | none =>
      match frameSend (packS (arg.getLsbD 5) (arg.extractLsb' 0 5)) data s with
      | (.ok, s1) => complete .ok [] s1
      | (e, s1) => raise e s1)

/-- RECV (R246): RecvBlock, then the block returned. -/
def execRecv (arg : Byte) (data : List Byte) (s : State) : Host.Outcome State Fault Refusal :=
  .next (match checkPlain arg data with
    | some e => raise e s
    | none => runReceive .recv s)

/-- SOFT_RESET (R270): the request 0xCF, RecvBlock, and the INF of the response 0xEF into the ATR cache. -/
def execSoftReset (arg : Byte) (data : List Byte) (s : State) : Host.Outcome State Fault Refusal :=
  .next (match checkPlain arg data with
    | some e => raise e s
    | none =>
      match frameSend (packS false 15#5) [] s with
      | (.ok, s1) => runReceive .softReset s1
      | (e, s1) => raise e s1)

/-- HARD_RESET (R272): the request 0xC6, RecvBlock, and the response 0xE6. -/
def execHardReset (arg : Byte) (data : List Byte) (s : State) : Host.Outcome State Fault Refusal :=
  .next (match checkPlain arg data with
    | some e => raise e s
    | none =>
      match frameSend (packS false 6#5) [] s with
      | (.ok, s1) => runReceive .hardReset s1
      | (e, s1) => raise e s1)

end Sys2Proof.Machine
end

