-- ==== Sys2Proof/Machine/Dispatch.lean ====
section
/-!
DEFINITION. exec: one arm per instruction.
-/

namespace Sys2Proof.Machine

def exec (i : Instr) (s : State) : Host.Outcome State Fault Refusal :=
  match i with
  | .crcCalc arg data => Sys2Proof.Machine.execCrcCalc arg data s
  | .frameEncode arg data => Sys2Proof.Machine.execFrameEncode arg data s
  | .frameDecode arg data => Sys2Proof.Machine.execFrameDecode arg data s
  | .sendI arg data => Sys2Proof.Machine.execSendI arg data s
  | .sendR arg data => Sys2Proof.Machine.execSendR arg data s
  | .sendS arg data => Sys2Proof.Machine.execSendS arg data s
  | .recv arg data => Sys2Proof.Machine.execRecv arg data s
  | .softReset arg data => Sys2Proof.Machine.execSoftReset arg data s
  | .hardReset arg data => Sys2Proof.Machine.execHardReset arg data s
  | .clearSeq arg data => Sys2Proof.Machine.execClearSeq arg data s
  | .endExchange arg data => Sys2Proof.Machine.execEndExchange arg data s
  | .rdreg arg data => Sys2Proof.Machine.execRdreg arg data s
  | .wrreg arg data => Sys2Proof.Machine.execWrreg arg data s
  | .readBuf arg data => Sys2Proof.Machine.execReadBuf arg data s
  | .illegal opc arg data => Sys2Proof.Machine.execIllegal opc arg data s
  | .iBlock ns m ignored => Sys2Proof.Machine.execIBlock ns m ignored s
  | .rBlockNoError nr i5 i32 => Sys2Proof.Machine.execRBlockNoError nr i5 i32 s
  | .rBlockCrcError nr i5 i32 => Sys2Proof.Machine.execRBlockCrcError nr i5 i32 s
  | .rBlockOtherError nr i5 i32 => Sys2Proof.Machine.execRBlockOtherError nr i5 i32 s
  | .rBlockUnnamedError nr i5 i32 => Sys2Proof.Machine.execRBlockUnnamedError nr i5 i32 s
  | .sResyncRequest => Sys2Proof.Machine.execSResyncRequest s
  | .sResyncResponse => Sys2Proof.Machine.execSResyncResponse s
  | .sSetIfsRequest => Sys2Proof.Machine.execSSetIfsRequest s
  | .sSetIfsResponse => Sys2Proof.Machine.execSSetIfsResponse s
  | .sAbortRequest => Sys2Proof.Machine.execSAbortRequest s
  | .sAbortResponse => Sys2Proof.Machine.execSAbortResponse s
  | .sWtxRequest => Sys2Proof.Machine.execSWtxRequest s
  | .sWtxResponse => Sys2Proof.Machine.execSWtxResponse s
  | .sEoaRequest => Sys2Proof.Machine.execSEoaRequest s
  | .sEoaResponse => Sys2Proof.Machine.execSEoaResponse s
  | .sResetRequest => Sys2Proof.Machine.execSResetRequest s
  | .sResetResponse => Sys2Proof.Machine.execSResetResponse s
  | .sAtrRequest => Sys2Proof.Machine.execSAtrRequest s
  | .sAtrResponse => Sys2Proof.Machine.execSAtrResponse s
  | .sSoftResetRequest => Sys2Proof.Machine.execSSoftResetRequest s
  | .sSoftResetResponse => Sys2Proof.Machine.execSSoftResetResponse s
  | .sUnnamed dir type => Sys2Proof.Machine.execSUnnamed dir type s

end Sys2Proof.Machine
end

