-- ==== Sys2Proof/Machine/Fetch.lean ====
section
/-!
DEFINITION. What the step needs to fetch: the PCB of the block just read, the end of a receive whose block could not be read,
and the placing of a frame on the port or of a block at the peer.
-/

namespace Sys2Proof.Machine

/-- The PCB of the block ReadBlock has stored: RXBUF[1] (R72). -/
def receivedPcb (s : State) : Byte := byteAt s.rxbuf 1

/-- A receive whose ReadBlock failed: its command completes with that error (R251, R324). -/
def abandonReceive (rc : Receive) (e : Status) (s : State) : State :=
  finish rc.caller e (receivedPcb s) { s with receiving := none }

/-- The state in which the host has submitted a frame ahead of everything else on the port. -/
def placeFrame (frame : List Byte) (s : State) : State :=
  { s with resetPin := false, receiving := none, port := frame ++ s.port }

/-- The state in which a receive is in progress and the peer's next answer is the block `A5 pcb 00 CRC`. -/
def placeBlock (pcb : Byte) (s : State) : State :=
  { s with
    resetPin := false
    receiving := some (s.receiving.getD ⟨.recv, maxRetries s⟩)
    link := { s.link with answers := .ack (buildFrame Config.nadPeer pcb []) :: s.link.answers } }

end Sys2Proof.Machine
end

