-- ==== Sys2Proof/Machine/Step.lean ====
section
/-!
DEFINITION. One step of the framer, and the placing of a table word where the step fetches.
-/

namespace Sys2Proof.Machine

/-- One step. The reset input comes first (R360, R361). In a receive the step reads one block from the peer and runs its PCB's
row, or ends the command with ReadBlock's error (R250, R251, log 6). Otherwise it takes the next complete command frame from the
port and runs the command (R100); with none there it waits, and nothing changes (R360, log 2). -/
def step (s : State) : Host.Outcome State Fault Refusal :=
  if s.resetPin then .next (blockReset s)
  else match s.receiving with
    | some rc =>
      match readBlock s with
      | (.ok, s1) => exec (decodeBlock (receivedPcb s1)) s1
      | (e, s1) => .next (abandonReceive rc e s1)
    | none =>
      match decodeCommand s.port with
      | .ok (i, rest) => exec i { s with port := rest }
      | .error _ => .next s

/-- The state with a table word placed where the step fetches (log 14). A command's frame goes to the head of the port, with
no receive in progress. A PCB row's byte goes into a block `A5 PCB 00 CRC` which the peer answers next, with a receive in
progress (RECV's, if there is none). The reset input is released in both. -/
def State.withFetchWord (s : State) (nbits w : Nat) : State :=
  if nbits ≤ 8 then placeBlock (BitVec.ofNat 8 w) s
  else placeFrame (frameOfWord w) s

end Sys2Proof.Machine
end

