-- ==== Sys2Proof/Machine/Pseudo.lean ====
section
/-!
DEFINITION. The assembler's operand defaults (30_encoding.md R118) and the host's pseudo-instructions as lists of commands
(R140 to R145). The bracketed host actions (waits, GPIO) have no effect on the block (70_reset_and_hazards.md R378) and do not
appear.
-/

namespace Sys2Proof.Machine

/-- `SEND_I m=…, inf=…` (R118). -/
def asmSendI (m : Bool := false) (inf : List Byte := []) : Instr := .sendI (bitByte m <<< 5) inf

/-- `SEND_R nr=…, ee=…` (R118). -/
def asmSendR (nr : Bool := false) (ee : BitVec 2 := 0#2) : Instr := .sendR ((bitByte nr <<< 4) ||| ee.setWidth 8) []

/-- `SEND_S dir=…, type=…, inf=…` (R118). -/
def asmSendS (dir : Bool := false) (type : BitVec 5) (inf : List Byte := []) : Instr :=
  .sendS ((bitByte dir <<< 5) ||| type.setWidth 8) inf

/-- `WRREG <register>, 0xVVVVVVVV` (R118). -/
def asmWrreg (reg : Byte) (v : Word) : Instr := .wrreg reg (toBe32 v)

/-- `RDREG <register>` (R118). -/
def asmRdreg (reg : Byte) : Instr := .rdreg reg []

/-- `READ_BUF <tx|rx|atr>` (R118). -/
def asmReadBuf (buf : Byte) : Instr := .readBuf buf []

/-- WARM_RESET (R140). -/
def warmReset : List Instr := [.clearSeq 0#8 [], .softReset 0#8 []]

/-- POWER_UP (R141), with a GPIO line or without one. -/
def powerUp (gpio : Bool) : List Instr := if gpio then [.clearSeq 0#8 []] else [.hardReset 0#8 [], .clearSeq 0#8 []]

/-- OPEN (R142), after the host has set I2C_ADDR. -/
def openSession (gpio : Bool) : List Instr := powerUp gpio ++ warmReset

/-- ACK_CHAIN ns (R143): N(R) = ns ^ 1. -/
def ackChain (ns : Bool) : List Instr := [asmSendR (!ns) 0#2]

/-- CLEAR_NAD_FLAG (R144). -/
def clearNadFlag : List Instr := [asmWrreg 0x09#8 1#32]

/-- SET_TIMING segt, mpot, bwt (R145). -/
def setTiming (segt mpot bwt : Word) : List Instr :=
  [asmWrreg 0x01#8 segt, asmWrreg 0x02#8 mpot, asmWrreg 0x03#8 bwt]

/-- A list of commands run one after the other, each to completion (R100, R379). -/
def runCommands : List Instr → State → State
  | [], s => s
  | i :: rest, s =>
    match exec i s with
    | .next t => runCommands rest t
    | .fault _ => s
    | .refused _ => s

end Sys2Proof.Machine
end

