-- ==== Sys2Proof/Safety.lean ====
section
/-!
DEFINITION. The terms claims use: when a state is in order, how bus attempts are counted and spaced in the trace, what a peer's
block looks like as answers, and the tables of statuses and bounds of the spec.
-/

namespace Sys2Proof.Machine

/-! ## States in order -/

/-- The canonical form of a byte array (R35 to R37): its fixed size, a length within it, and zeros at and above the length. -/
def bufWf (size len : Nat) (b : List Byte) : Bool :=
  b.length == size && decide (len ≤ size) && (b.drop len).all (· == 0#8)

/-- TXBUF is empty or holds a frame of the block's own, in wire order with a right CRC (R35). -/
def txCacheWf (s : State) : Bool :=
  s.txlen == 0 ||
    (byteAt s.txbuf 0 == Config.nadHost && s.txlen == 5 + frameLen s.txbuf && decide (frameLen s.txbuf ≤ Config.maxInf)
      && (verifyFrame (txFrame s)).2)

/-- RXBUF holds nothing, the five bytes of a first read, or a whole frame (R36). -/
def rxLayoutWf (s : State) : Bool :=
  s.rxlen == 0 || s.rxlen == 5 || (s.rxlen == 5 + frameLen s.rxbuf && decide (frameLen s.rxbuf ≤ Config.maxInf))

/-- The divisor and the multiplicand of MAX_RETRIES are in their legal ranges (R39, R40). -/
def timingWf (s : State) : Bool := decide (1 ≤ s.mpotUs.toNat) && decide (1 ≤ s.bwtMs.toNat)

/-- A receive in progress has at most MAX_RETRIES re-entries left (R48, R251). -/
def receiveWf (s : State) : Bool :=
  match s.receiving with
  | none => true
  | some rc => decide (rc.left ≤ maxRetries s)

/-- A state in order: the three byte arrays in canonical form, the buffers' layouts, the timing registers in range, the
re-entry counter within its bound. -/
def State.inOrder (s : State) : Bool :=
  bufWf Config.frameBytes s.txlen s.txbuf && bufWf Config.frameBytes s.rxlen s.rxbuf && bufWf Config.atrBytes s.atrlen s.atrbuf
    && txCacheWf s && rxLayoutWf s && timingWf s && receiveWf s

/-! ## The trace -/

/-- Whether an event is a bus attempt. -/
def BusEvent.isAttempt : BusEvent → Bool
  | .attempt _ _ _ _ _ => true
  | .guardWait _ => false
  | .pollWait _ => false

/-- How many bus attempts a trace holds. -/
def attempts (tr : List BusEvent) : Nat := tr.countP BusEvent.isAttempt

/-- How many bytes an ACK of an attempt of n bytes brings (R200). -/
def ackBytes (n : Nat) : BusDir → Nat
  | .read => n
  | .write => 0

/-- The events of one transfer to the slave `addr`, run to its end (R205, R206), with the most attempts it may still make and
whether it ended OK. Every attempt is preceded by Wait(SEGT_US). An ACK, a SHORT or a FAULT ends the transfer; a NACK ends it
only at the last attempt allowed, and otherwise Wait(MPOT_US) and another attempt follow. -/
inductive TransferTrace (segt mpot : BitVec 16) (addr : BitVec 7) (dir : BusDir) (n : Nat) (data : List Byte) :
    Nat → Bool → List BusEvent → Prop where
  | acked (left : Nat) (d : List Byte) (hd : d.length = ackBytes n dir) :
      TransferTrace segt mpot addr dir n data (left + 1) true [.guardWait segt, .attempt dir addr n data (.ack d)]
  | failed (left : Nat) (a : BusAnswer) (ha : a = .fault ∨ ∃ k, k < n ∧ a = .short k) :
      TransferTrace segt mpot addr dir n data (left + 1) false [.guardWait segt, .attempt dir addr n data a]
  | exhausted : TransferTrace segt mpot addr dir n data 1 false [.guardWait segt, .attempt dir addr n data .nack]
  | retry (left : Nat) (ok : Bool) (rest : List BusEvent) (h : TransferTrace segt mpot addr dir n data left ok rest) :
      TransferTrace segt mpot addr dir n data (left + 1) ok
        (.guardWait segt :: .attempt dir addr n data .nack :: .pollWait mpot :: rest)

/-- A sequence of transfers run to their ends, one after the other (R80), all to the slave `addr` and of at most `most` attempts
each. One that fails is the last, because the command then completes with its error (R324). -/
inductive TransfersTrace (segt mpot : BitVec 16) (addr : BitVec 7) (most : Nat) : List BusEvent → Prop where
  | none : TransfersTrace segt mpot addr most []
  | failed (dir : BusDir) (n : Nat) (data : List Byte) (last : List BusEvent)
      (h : TransferTrace segt mpot addr dir n data most false last) : TransfersTrace segt mpot addr most last
  | more (dir : BusDir) (n : Nat) (data : List Byte) (first rest : List BusEvent)
      (h : TransferTrace segt mpot addr dir n data most true first) (hrest : TransfersTrace segt mpot addr most rest) :
      TransfersTrace segt mpot addr most (first ++ rest)

/-! ## The peer's blocks -/

/-- The answers with which a peer sends a frame to ReadBlock (R250): the five bytes of the first read, then the rest if
LEN > 0. -/
def blockAnswers (f : List Byte) : List BusAnswer :=
  .ack (f.take 5) :: (if f.length ≤ 5 then [] else [.ack (f.drop 5)])

/-- The answers `ans` with which a transfer of n bytes and at most `most` attempts fails with `e`, and no answer more (R205): a
SHORT or a FAULT after fewer than `most` NACKs gives ERR_TRANSPORT; `most` NACKs give ERR_NACK_TIMEOUT. -/
def TransferFails (n most : Nat) (e : Status) (ans : List BusAnswer) : Prop :=
  (e = .errTransport ∧ ∃ (k : Nat) (a : BusAnswer), k < most ∧ (a = .fault ∨ ∃ j, j < n ∧ a = .short j) ∧
    ans = List.replicate k .nack ++ [a]) ∨
  (e = .errNackTimeout ∧ ans = List.replicate most .nack)

/-- The answers of a WTX request that carries `nad` and `inf`, and of the ACKed response to it (R251). -/
def wtxAnswers (w : Byte × List Byte) : List BusAnswer := blockAnswers (buildFrame w.1 0xC3#8 w.2) ++ [.ack []]

/-- A PCB that RecvBlock returns: neither 0xC3 nor an R-block with EE ≠ 0 (R251). -/
def plainPcb (pcb : Byte) : Bool := pcb != 0xC3#8 && !(pcb &&& 0xC0#8 == 0x80#8 && pcb &&& 0x03#8 != 0#8)

/-- The events of one write of the frame `f` that is ACKed at the first attempt (R205, R206). -/
def writeTrace (s : State) (f : List Byte) : List BusEvent :=
  [.guardWait s.segtUs, .attempt .write s.i2cAddr f.length f (.ack [])]

/-- The events of the reads of the frame `f`, each ACKed at the first attempt (R250). -/
def readTrace (s : State) (f : List Byte) : List BusEvent :=
  [.guardWait s.segtUs, .attempt .read s.i2cAddr 5 [] (.ack (f.take 5))] ++
    (if f.length ≤ 5 then []
      else [.guardWait s.segtUs, .attempt .read s.i2cAddr (f.length - 5) [] (.ack (f.drop 5))])

/-- The events of one transfer whose attempts are answered `ans`, in order (R205, R206): a guard wait before each attempt, a polling
wait between two. -/
def transferTrace (s : State) (dir : BusDir) (n : Nat) (data : List Byte) : List BusAnswer → List BusEvent
  | [] => []
  | [a] => [.guardWait s.segtUs, .attempt dir s.i2cAddr n data a]
  | a :: b :: ans =>
    .guardWait s.segtUs :: .attempt dir s.i2cAddr n data a :: .pollWait s.mpotUs :: transferTrace s dir n data (b :: ans)

/-- The state after the frame `f` has been put into TXBUF and written, ACKed at the first attempt (R232): `rest` are the peer's
answers after that. -/
def State.afterSend (s : State) (f : List Byte) (rest : List BusAnswer) : State :=
  { s with
    txbuf := f ++ List.replicate (259 - f.length) 0#8
    txlen := f.length
    latch := if s.params.latchClear = .perSend then false else s.latch
    link := ⟨rest, s.link.draws, s.link.trace ++ writeTrace s f⟩ }

/-- The state after ReadBlock has read the frame `f` with a right CRC, each read ACKed at the first attempt (R250): `rest` are
the peer's answers after that. -/
def State.afterBlock (s : State) (f : List Byte) (rest : List BusAnswer) : State :=
  { s with
    rxbuf := f ++ List.replicate (259 - f.length) 0#8
    rxlen := f.length
    nadMismatch := s.nadMismatch || byteAt f 0 != 0xA5#8
    lastRx := ⟨byteAt f 0, byteAt f 1, byteAt f 2⟩
    link := ⟨rest, s.link.draws, s.link.trace ++ readTrace s f⟩ }

/-! ## Tables of the spec -/

/-- The error statuses every RecvBlock can end with, after ERR_PARAM of the legality checks (R322, the RECV row). -/
def recvStatuses : List Status :=
  [.errParam, .errTransport, .errNackTimeout, .errProtoLen, .errProtoCrc, .errRetxExhausted, .errWtxLimit]

/-- The error statuses of each command (R322). The block rows are no commands. -/
def errorStatuses : Instr → List Status
  | .crcCalc _ _ => [.errParam]
  | .frameEncode _ _ => [.errParam]
  | .frameDecode _ _ => [.errParam, .errProtoCrc]
  | .sendI arg _ =>
    if arg.getLsbD 5 then
      [.errParam, .errTransport, .errNackTimeout, .errProtoLen, .errProtoCrc, .errRetxExhausted, .errWtxLimit,
        .errProtoPcb, .errProtoNr]
    else [.errParam, .errTransport, .errNackTimeout]
  | .sendR _ _ => [.errParam, .errTransport, .errNackTimeout]
  | .sendS _ _ => [.errParam, .errTransport, .errNackTimeout]
  | .recv _ _ => recvStatuses
  | .softReset _ _ => .errProtoPcb :: recvStatuses
  | .hardReset _ _ => .errProtoPcb :: recvStatuses
  | .clearSeq _ _ => [.errParam]
  | .endExchange _ _ => [.errParam]
  | .readBuf _ _ => [.errParam]
  | .rdreg _ _ => [.errParam, .errReg]
  | .wrreg _ _ => [.errParam, .errReg]
  | .illegal _ _ _ => [.errIllegalCmd]
  | _ => []

/-- The most bus attempts of each command with N = MAX_RETRIES (R380). -/
def attemptBound (n : Nat) : Instr → Nat
  | .sendI arg _ => if arg.getLsbD 5 then 3 * n ^ 2 + 3 * n else n
  | .sendR _ _ => n
  | .sendS _ _ => n
  | .recv _ _ => 3 * n ^ 2 + 2 * n
  | .softReset _ _ => 3 * n ^ 2 + 3 * n
  | .hardReset _ _ => 3 * n ^ 2 + 3 * n
  | _ => 0

/-- The opcode map with the reserved ARG bits and the DLEN range of each command (R104, R106). -/
def argTable : List (Byte × Byte × Nat × Nat) :=
  [(0x01#8, 0xFF#8, 0, 65535), (0x02#8, 0x00#8, 0, 254), (0x03#8, 0xFF#8, 5, 259), (0x10#8, 0xDF#8, 0, 254),
    (0x11#8, 0xEC#8, 0, 0), (0x12#8, 0xC0#8, 0, 254), (0x13#8, 0xFF#8, 0, 0), (0x14#8, 0xFF#8, 0, 0),
    (0x15#8, 0xFF#8, 0, 0), (0x20#8, 0xFF#8, 0, 0), (0x21#8, 0xFF#8, 0, 0), (0x30#8, 0x00#8, 0, 0),
    (0x31#8, 0x00#8, 4, 4), (0x32#8, 0x00#8, 0, 0)]

/-- A 32-bit value of four bytes, most significant first, as a number (R76). -/
def natOfBytes (d : List Byte) : Nat :=
  (byteAt d 0).toNat * 16777216 + (byteAt d 1).toNat * 65536 + (byteAt d 2).toNat * 256 + (byteAt d 3).toNat

/-- The legal values of a writable register (R38 to R42, R294). -/
def legalRegValue (reg : Byte) (v : Nat) : Bool :=
  match reg.toNat with
  | 1 => decide (v ≤ 65535)
  | 2 => decide (1 ≤ v ∧ v ≤ 65535)
  | 3 => decide (1 ≤ v ∧ v ≤ 65535)
  | 5 => decide (v ≤ 127)
  | _ => true

/-- The six checks of R103 on a frame's bytes, in their order: the error of the first that fails. -/
def refusalOf (opc arg : Byte) (data : List Byte) : Option Status :=
  match argTable.find? (fun row => row.1 == opc) with
  | none => some .errIllegalCmd
  | some (_, reserved, least, most) =>
    if arg &&& reserved ≠ 0#8 ∨ (opc = 0x11#8 ∧ arg &&& 3#8 = 3#8) ∨ (opc = 0x32#8 ∧ 2 < arg.toNat) then some .errParam
    else if (opc = 0x30#8 ∧ 11 < arg.toNat) ∨ (opc = 0x31#8 ∧ arg ∉ [1#8, 2#8, 3#8, 5#8, 9#8]) then some .errReg
    else if data.length < least ∨ most < data.length then some .errParam
    else if opc = 0x31#8 ∧ legalRegValue arg (natOfBytes data) = false then some .errParam
    else if opc = 0x03#8 ∧ (data.length ≠ 5 + (byteAt data 2).toNat ∨ 254 < (byteAt data 2).toNat) then some .errParam
    else none

/-- The value of each register as a number (R45). -/
def regValue (reg : Byte) (s : State) : Option Nat :=
  match reg.toNat with
  | 0 => some (s.ns.toNat + 2 * s.nr.toNat + 4 * s.latch.toNat)
  | 1 => some s.segtUs.toNat
  | 2 => some s.mpotUs.toNat
  | 3 => some s.bwtMs.toNat
  | 4 => some (max 1 (s.bwtMs.toNat * 1000 / s.mpotUs.toNat))
  | 5 => some s.i2cAddr.toNat
  | 6 => some s.txlen
  | 7 => some s.rxlen
  | 8 => some (s.lastRx.nad.toNat * 65536 + s.lastRx.pcb.toNat * 256 + s.lastRx.len.toNat)
  | 9 => some s.nadMismatch.toNat
  | 10 => some s.atrlen
  | 11 =>
    some ((if s.params.latchClear = .perExchange then 1 else 0) + (if s.params.wtxCache = .overwrite then 2 else 0))
  | _ => none

end Sys2Proof.Machine

namespace Sys2Proof

/-- The PCB and INF of the frame a legal command sends through FrameSend, with N(S) = `ns` (R236, R240, R242, R270, R272); none
for a command that sends nothing and for the block rows. -/
def Instr.sentBlock (ns : Bool) : Instr → Option (Byte × List Byte)
  | .sendI arg data => some ((if ns then 0x40#8 else 0x00#8) ||| (arg &&& 0x20#8), data)
  | .sendR arg _ => some (0x80#8 ||| arg, [])
  | .sendS arg data => some (0xC0#8 ||| arg, data)
  | .softReset _ _ => some (0xCF#8, [])
  | .hardReset _ _ => some (0xC6#8, [])
  | _ => none

/-- Whether a command sends a frame through FrameSend. -/
def Instr.sends (i : Instr) : Bool := (i.sentBlock false).isSome

/-- Whether a command runs RecvBlock: RECV, the two resets, SEND_I with M = 1 (R236, R246, R270, R272). -/
def Instr.receives : Instr → Bool
  | .sendI arg _ => arg.getLsbD 5
  | .recv _ _ => true
  | .softReset _ _ => true
  | .hardReset _ _ => true
  | _ => false

/-- Whether a row of the block layer calls for a resend: the R-blocks with EE ≠ 0 (R115, R258). -/
def Instr.asksResend : Instr → Bool
  | .rBlockCrcError _ _ _ => true
  | .rBlockOtherError _ _ _ => true
  | .rBlockUnnamedError _ _ _ => true
  | _ => false

/-- Whether a row of the block layer is returned by RecvBlock: all but the WTX request and the R-blocks with EE ≠ 0 (R251). -/
def Instr.isReturned (i : Instr) : Bool :=
  match i with
  | .sWtxRequest => false
  | .rBlockCrcError _ _ _ => false
  | .rBlockOtherError _ _ _ => false
  | .rBlockUnnamedError _ _ _ => false
  | _ => i.layer == .block

/-- The PCB byte of a block row, from its encoding. -/
def Instr.pcb (i : Instr) : Byte := Machine.byteAt (encode i) 0

/-- Whether an instruction is the SEND_I command and passes its legality checks: no ARG bit but M, at most 254 bytes (R236). -/
def Instr.isLegalSendI : Instr → Bool
  | .sendI arg data => (arg == 0x00#8 || arg == 0x20#8) && decide (data.length ≤ 254)
  | _ => false

end Sys2Proof
end

