-- ==== Sys2Proof/Certificates/Slice0/Obligations.lean ====
section
/-!
DEFINITION. The statements for the provers. Each docstring names the rules of spec/ it rests on.
-/

open Sys2Proof Sys2Proof.Machine

/-! ## Encoding -/

/-- R101, R104: decoding the encoding of a well-formed command gives it back, and leaves what follows it on the port. -/
def Obligations.DecodeEncodeCommand : Prop :=
  ∀ (i : Instr) (rest : List Byte), i.wf = true → i.layer = .command → decodeCommand (encode i ++ rest) = .ok (i, rest)

/-- R110 to R116: a well-formed block row is one PCB byte, which decodes to it. -/
def Obligations.DecodeEncodeBlock : Prop :=
  ∀ i : Instr, i.wf = true → i.layer = .block → encode i = [i.pcb] ∧ decodeBlock i.pcb = i

/-- R101, R297, R110: whatever the decoder reads is a well-formed command whose encoding is exactly the bytes it took from the
port; and every PCB byte is a well-formed block row that encodes to it. -/
def Obligations.DecodedBytesAreTheEncoding : Prop :=
  (∀ (bytes rest : List Byte) (i : Instr), decodeCommand bytes = .ok (i, rest) →
    i.wf = true ∧ i.layer = .command ∧ bytes = encode i ++ rest) ∧
  (∀ pcb : Byte, (decodeBlock pcb).wf = true ∧ (decodeBlock pcb).layer = .block ∧ encode (decodeBlock pcb) = [pcb])

/-- Words written out from the spec's encodings: the command frames of R118's SEND_I example, R240's and R294's, and the header
of a CRC_CALC with no DATA (R101, R104); two PCBs of R114's table and one of R112's layout. That the header `01 00 00 00` is the
32-bit table word 0x01000000, and a PCB byte the 8-bit word of the same value, is the MODEL's numbering of a table word (log 14,
DEDUCED) and no rule of the spec: the four clauses with decodeTableWord rest on it. -/
def Obligations.SampleWordsDecode : Prop :=
  decodeTableWord 32 0x01000000 = some (.crcCalc 0#8 []) ∧
  decodeCommand [0x10#8, 0x20#8, 0x00#8, 0x02#8, 0x00#8, 0xA4#8] = .ok (.sendI 0x20#8 [0x00#8, 0xA4#8], []) ∧
  decodeCommand [0x11#8, 0x10#8, 0x00#8, 0x00#8] = .ok (.sendR 0x10#8 [], []) ∧
  decodeCommand [0x31#8, 0x05#8, 0x00#8, 0x04#8, 0x00#8, 0x00#8, 0x00#8, 0x48#8, 0x20#8] =
    .ok (.wrreg 0x05#8 [0x00#8, 0x00#8, 0x00#8, 0x48#8], [0x20#8]) ∧
  decodeTableWord 8 0xC3 = some .sWtxRequest ∧ decodeTableWord 8 0xEF = some .sSoftResetResponse ∧
  decodeTableWord 8 0x92 = some (.rBlockOtherError true false 0#2)

/-! ## The step -/

/-- R100: with no reset and no receive in progress, a step takes the first whole frame off the port and is exec of its
instruction, which is a well-formed command. -/
def Obligations.StepRunsTheDecodedCommand : Prop :=
  ∀ (s : State) (i : Instr) (rest : List Byte), s.resetPin = false → s.receiving = none →
    decodeCommand s.port = .ok (i, rest) → i.wf = true → step s = exec i { s with port := rest }

/-- R250, R251 (the model's receive phase, log 6): in a receive a step reads a block; if that succeeds, it is exec of the row of
RXBUF[1]. -/
def Obligations.StepRunsTheReceivedBlock : Prop :=
  ∀ (s s1 : State) (rc : Receive), s.resetPin = false → s.receiving = some rc → readBlock s = (.ok, s1) →
    step s = exec (decodeBlock (byteAt s1.rxbuf 1)) s1

/-- R101, R360 (the model's waiting step, log 2): while the port does not hold a whole frame, a step changes nothing; a frame is
4 + DLEN bytes. -/
def Obligations.StepWaitsForAWholeFrame : Prop :=
  ∀ (s : State), s.resetPin = false → s.receiving = none →
    (s.port.length < 4 ∨ s.port.length < 4 + (byteAt s.port 2).toNat * 256 + (byteAt s.port 3).toNat) →
    step s = .next s

/-- R49, R360, R361: the reset input puts every field of R31 to its reset value, in the middle of a receive too, keeps the
parameters, makes no bus attempt and gives no response; State.reset has the same values. -/
def Obligations.ResetValuesOfEveryField : Prop :=
  (∀ s : State, s.resetPin = true → ∃ t, step s = .next t ∧
    t.ns = false ∧ t.nr = false ∧ t.latch = false ∧
    t.txbuf = List.replicate 259 0#8 ∧ t.txlen = 0 ∧ t.rxbuf = List.replicate 259 0#8 ∧ t.rxlen = 0 ∧
    t.atrbuf = List.replicate 254 0#8 ∧ t.atrlen = 0 ∧ t.segtUs = 10#16 ∧ t.mpotUs = 1000#16 ∧ t.bwtMs = 1000#16 ∧
    maxRetries t = 1000 ∧ t.i2cAddr = 0#7 ∧ t.lastRx = ⟨0#8, 0#8, 0#8⟩ ∧ t.nadMismatch = false ∧
    t.receiving = none ∧ t.params = s.params ∧ t.link = s.link ∧ t.out = s.out) ∧
  State.reset.ns = false ∧ State.reset.nr = false ∧ State.reset.latch = false ∧
  State.reset.txbuf = List.replicate 259 0#8 ∧ State.reset.txlen = 0 ∧
  State.reset.rxbuf = List.replicate 259 0#8 ∧ State.reset.rxlen = 0 ∧
  State.reset.atrbuf = List.replicate 254 0#8 ∧ State.reset.atrlen = 0 ∧ State.reset.segtUs = 10#16 ∧
  State.reset.mpotUs = 1000#16 ∧ State.reset.bwtMs = 1000#16 ∧ maxRetries State.reset = 1000 ∧
  State.reset.i2cAddr = 0#7 ∧ State.reset.lastRx = ⟨0#8, 0#8, 0#8⟩ ∧ State.reset.nadMismatch = false

/-- R35, R36, R37, R39, R40: every step keeps the state in order: the three byte arrays have their size and are zero at and above
their lengths, TXBUF is empty or holds a frame of the block with a right CRC, RXBUF holds nothing, five bytes or a whole frame,
and MPOT_US and BWT_MS are not 0. -/
def Obligations.StepKeepsTheStateInOrder : Prop :=
  ∀ s t : State, s.inOrder = true → step s = .next t → t.inOrder = true

/-- The state after reset is in order. -/
def Obligations.ResetStateIsInOrder : Prop := State.reset.inOrder = true

/-- R7, R82, R360: no instruction changes the build-time parameters, the bytes on the port or the reset input. -/
def Obligations.InstructionsLeaveInputsAndParametersAlone : Prop :=
  ∀ (i : Instr) (s t : State), exec i s = .next t →
    t.params = s.params ∧ t.port = s.port ∧ t.resetPin = s.resetPin

/-- R31 to R47: who may write what. Only SEND_I and CLEAR_SEQ change NS; only CLEAR_SEQ changes NR. LATCH is set only by a
command that receives or by an R-block with EE ≠ 0 in a receive, and cleared only by END_EXCHANGE or, under PER_SEND, by what
sends through FrameSend: a sending command, or under OVERWRITE the WTX response. TXBUF and TXLEN change only by what sends
through FrameSend and by END_EXCHANGE. RXBUF and RXLEN change only by a command that receives and by END_EXCHANGE; LAST_RX only
by a command that receives. Only SOFT_RESET, or a block that ends a SOFT_RESET, changes ATRBUF and ATRLEN. Only WRREG changes
SEGT_US, MPOT_US, BWT_MS and I2C_ADDR. NAD_MISMATCH is set only by a command that receives and cleared only by WRREG FLAGS with
bit 0 set; over steps, only by that and by reset. (In the receive phase of log 6 the reading of the block is the step's and not
the row's, so no row writes RXBUF, RXLEN, LAST_RX or NAD_MISMATCH.) -/
def Obligations.WritersOfEachRegister : Prop :=
  (∀ (i : Instr) (s t : State), i.wf = true → exec i s = .next t →
    (t.ns = s.ns ∨ (∃ a d, i = .sendI a d) ∨ (∃ a d, i = .clearSeq a d)) ∧
    (t.nr = s.nr ∨ (∃ a d, i = .clearSeq a d)) ∧
    (t.latch = s.latch ∨
      (t.latch = true ∧ (i.receives = true ∨ (i.asksResend = true ∧ ∃ c left, s.receiving = some ⟨c, left + 1⟩))) ∨
      (t.latch = false ∧ ((∃ a d, i = .endExchange a d) ∨ (s.params.latchClear = .perSend ∧ (i.sends = true ∨
        (s.params.wtxCache = .overwrite ∧
          (i.receives = true ∨ (i = .sWtxRequest ∧ ∃ c left, s.receiving = some ⟨c, left + 1⟩)))))))) ∧
    ((t.txbuf = s.txbuf ∧ t.txlen = s.txlen) ∨ i.sends = true ∨ (∃ a d, i = .endExchange a d) ∨
      (s.params.wtxCache = .overwrite ∧
        (i.receives = true ∨ (i = .sWtxRequest ∧ ∃ c left, s.receiving = some ⟨c, left + 1⟩)))) ∧
    ((t.rxbuf = s.rxbuf ∧ t.rxlen = s.rxlen) ∨ i.receives = true ∨ (∃ a d, i = .endExchange a d)) ∧
    (t.lastRx = s.lastRx ∨ i.receives = true) ∧
    ((t.atrbuf = s.atrbuf ∧ t.atrlen = s.atrlen) ∨ (∃ a d, i = .softReset a d) ∨
      (i = .sSoftResetResponse ∧ ∃ left, s.receiving = some ⟨.softReset, left⟩)) ∧
    ((t.segtUs = s.segtUs ∧ t.mpotUs = s.mpotUs ∧ t.bwtMs = s.bwtMs ∧ t.i2cAddr = s.i2cAddr) ∨ (∃ a d, i = .wrreg a d)) ∧
    (t.nadMismatch = s.nadMismatch ∨ (t.nadMismatch = true ∧ i.receives = true) ∨
      (t.nadMismatch = false ∧ ∃ d, i = .wrreg 9#8 d ∧ d.length = 4 ∧ natOfBytes d % 2 = 1))) ∧
  (∀ s t : State, step s = .next t → s.nadMismatch = true → t.nadMismatch = false →
    s.resetPin = true ∨ (s.receiving = none ∧ ∃ d rest, decodeCommand s.port = .ok (.wrreg 9#8 d, rest) ∧ d.length = 4 ∧
      natOfBytes d % 2 = 1))

/-! ## Legality and completion -/

/-- R103: the six checks on a frame's bytes, in their order. A command that fails one completes with its error, changes no
state and issues no bus attempt; a command that passes them completes with none of the three host-interface errors. -/
def Obligations.RefusedFramesChangeNothing : Prop :=
  ∀ (i : Instr) (s : State), i.wf = true → i.layer = .command →
    (∀ e, refusalOf (byteAt (encode i) 0) (byteAt (encode i) 1) ((encode i).drop 4) = some e →
      exec i s = .next { s with out := s.out ++ [⟨e, []⟩] }) ∧
    (refusalOf (byteAt (encode i) 0) (byteAt (encode i) 1) ((encode i).drop 4) = none →
      ∃ t r, exec i s = .next t ∧ t.out = s.out ++ [r] ∧ r.status ∉ [.errIllegalCmd, .errParam, .errReg])

/-- R102, R322, R324: every command gives exactly one response, whose status is OK or one of those R322 lists for it, with no
data on an error. -/
def Obligations.OneResponsePerCommand : Prop :=
  ∀ (i : Instr) (s t : State), i.layer = .command → exec i s = .next t →
    ∃ r, t.out = s.out ++ [r] ∧ (r.status = .ok ∨ r.status ∈ errorStatuses i) ∧ (r.status ≠ .ok → r.data = [])

/-- R102, R107: the response to a command fits its frame: at most 259 bytes of data from any state in order, so RLEN is exact. -/
def Obligations.ResponsesFitTheirFrame : Prop :=
  ∀ (i : Instr) (s t : State), s.inOrder = true → i.layer = .command → exec i s = .next t →
    ∃ r, t.out = s.out ++ [r] ∧ r.data.length ≤ 259 ∧
      r.bytes = [r.status.code, BitVec.ofNat 8 (r.data.length / 256), BitVec.ofNat 8 (r.data.length % 256)] ++ r.data

/-- R380: every command terminates, within the bounds on bus attempts of R380's table. -/
def Obligations.AttemptsPerCommandAreBounded : Prop :=
  ∀ (i : Instr) (s : State), i.layer = .command → ∃ t, exec i s = .next t ∧
    attempts t.link.trace ≤ attempts s.link.trace + attemptBound (maxRetries s) i

/-- R202, R205, R206, R207: what an instruction adds to the bus trace is a sequence of transfers to I2C_ADDR, each run to its end,
with the guard wait before every attempt and the polling wait after every NACKed attempt but the MAX_RETRIES-th of its transfer.
A transfer ends at an ACK, a SHORT, a FAULT or its MAX_RETRIES-th NACK, never at an earlier NACK; none follows a failed one. -/
def Obligations.EveryAttemptIsSpacedAsTheArbiterSays : Prop :=
  ∀ (i : Instr) (s t : State), exec i s = .next t →
    ∃ ev, t.link.trace = s.link.trace ++ ev ∧ TransfersTrace s.segtUs s.mpotUs s.i2cAddr (maxRetries s) ev

/-! ## The CRC and the codec -/

/-- R154: the residue of every frame built is 0x0F47 before the byte swap, so crc16 of the whole frame is 0x470F. -/
def Obligations.FrameResidueIsConstant : Prop :=
  ∀ (nad pcb : Byte) (inf : List Byte),
    crcUnswapped (buildFrame nad pcb inf) = 0x0F47#16 ∧ crc16 (buildFrame nad pcb inf) = 0x470F#16

/-- R155: CRC_CALC answers the two bytes of crc16(DATA), high byte first, for any DATA of 0 to 65535 bytes and changes nothing else;
ARG ≠ 0 gives ERR_PARAM. The CRC of an empty DATA is 00 00, and one more byte goes through the register as R150 says. -/
def Obligations.CrcCalcAnswersTheCrc : Prop :=
  (∀ (s : State) (data : List Byte), data.length ≤ 65535 → ∃ hi lo : Byte,
    exec (.crcCalc 0x00#8 data) s = .next { s with out := s.out ++ [⟨.ok, [hi, lo]⟩] } ∧
    hi.toNat * 256 + lo.toNat = (crc16 data).toNat) ∧
  (∀ (s : State) (arg : Byte) (data : List Byte), arg ≠ 0x00#8 →
    exec (.crcCalc arg data) s = .next { s with out := s.out ++ [⟨.errParam, []⟩] }) ∧
  crc16 [] = 0#16 ∧
  (∀ (data : List Byte) (b : Byte), crcUnswapped (data ++ [b]) = crcByte (crcUnswapped data ^^^ 0xFFFF#16) b ^^^ 0xFFFF#16)

/-- R180: FRAME_ENCODE answers the wire frame, byte for byte, for any PCB and an INF of 0 to 254 bytes; a longer DATA gives ERR_PARAM;
nothing else changes. -/
def Obligations.FrameEncodeAnswersTheFrame : Prop :=
  ∀ (s : State) (pcb : Byte) (inf : List Byte),
    (inf.length ≤ 254 → ∃ hi lo : Byte,
      exec (.frameEncode pcb inf) s =
        .next { s with out := s.out ++ [⟨.ok, [0x5A#8, pcb, BitVec.ofNat 8 inf.length] ++ inf ++ [hi, lo]⟩] } ∧
      hi.toNat * 256 + lo.toNat = (crc16 ([0x5A#8, pcb, BitVec.ofNat 8 inf.length] ++ inf)).toNat) ∧
    (254 < inf.length → exec (.frameEncode pcb inf) s = .next { s with out := s.out ++ [⟨.errParam, []⟩] })

/-- R182, R177: FRAME_DECODE accepts a well-shaped frame exactly when its last two bytes are the CRC of the others, high byte
first; it then answers NAD, PCB, LEN and INF; the NAD is not tested. ARG ≠ 0 or a DATA of another shape gives ERR_PARAM. Nothing
else changes. -/
def Obligations.FrameDecodeAcceptsExactlyTheRightCrc : Prop :=
  (∀ (s : State) (nad pcb hi lo : Byte) (inf : List Byte), inf.length ≤ 254 →
    exec (.frameDecode 0x00#8 ([nad, pcb, BitVec.ofNat 8 inf.length] ++ inf ++ [hi, lo])) s =
      .next { s with
        out := s.out ++
          [if hi.toNat * 256 + lo.toNat = (crc16 ([nad, pcb, BitVec.ofNat 8 inf.length] ++ inf)).toNat
            then ⟨.ok, [nad, pcb, BitVec.ofNat 8 inf.length] ++ inf⟩ else ⟨.errProtoCrc, []⟩] }) ∧
  (∀ (s : State) (arg : Byte) (data : List Byte),
    (arg ≠ 0x00#8 ∨ data.length < 5 ∨ 259 < data.length ∨ 254 < (byteAt data 2).toNat ∨
      data.length ≠ 5 + (byteAt data 2).toNat) →
    exec (.frameDecode arg data) s = .next { s with out := s.out ++ [⟨.errParam, []⟩] })

/-- R178: every frame built verifies, and parsing it gives back its parts. -/
def Obligations.FrameRoundTrip : Prop :=
  ∀ (nad pcb : Byte) (inf : List Byte), inf.length ≤ 254 →
    (verifyFrame (buildFrame nad pcb inf)).2 = true ∧
    byteAt (buildFrame nad pcb inf) 0 = nad ∧ byteAt (buildFrame nad pcb inf) 1 = pcb ∧
    (byteAt (buildFrame nad pcb inf) 2).toNat = inf.length ∧
    ((buildFrame nad pcb inf).drop 3).take inf.length = inf

/-- R150, R177, R182: a frame with one byte changed, LEN apart, is rejected by FRAME_DECODE. -/
def Obligations.OneCorruptedByteIsRejected : Prop :=
  ∀ (s : State) (nad pcb b : Byte) (inf : List Byte) (i : Nat), inf.length ≤ 254 → i < 5 + inf.length → i ≠ 2 →
    b ≠ byteAt (buildFrame nad pcb inf) i →
    exec (.frameDecode 0x00#8 ((buildFrame nad pcb inf).set i b)) s =
      .next { s with out := s.out ++ [⟨.errProtoCrc, []⟩] }

/-- R173: classify by the PCB as a number, and its inverse on the packed forms of R170 to R172. -/
def Obligations.ClassifyByTopBits : Prop :=
  (∀ pcb : Byte,
    (pcb.toNat < 128 → classify pcb = .iBlock (decide (64 ≤ pcb.toNat % 128)) (decide (32 ≤ pcb.toNat % 64))) ∧
    (128 ≤ pcb.toNat → pcb.toNat < 192 →
      classify pcb = .rBlock (decide (16 ≤ pcb.toNat % 32)) (BitVec.ofNat 2 (pcb.toNat % 4))) ∧
    (192 ≤ pcb.toNat → classify pcb = .sBlock (decide (32 ≤ pcb.toNat % 64)) (BitVec.ofNat 5 (pcb.toNat % 32)))) ∧
  (∀ ns m, classify (packI ns m) = .iBlock ns m) ∧
  (∀ nr ee, classify (packR nr ee) = .rBlock nr ee) ∧
  (∀ d t, classify (packS d t) = .sBlock d t)

/-! ## The arbiter -/

/-- R205: k NACKs and then an ACK, with k below MAX_RETRIES, give OK after k + 1 attempts, with the polling wait after each
NACKed attempt, and nothing of the state changes but the bus port. -/
def Obligations.TransferSucceedsAfterNacks : Prop :=
  ∀ (s : State) (dir : BusDir) (n k : Nat) (data d : List Byte) (rest : List BusAnswer), k < maxRetries s →
    d.length = (match dir with | .read => n | .write => 0) →
    s.link.answers = List.replicate k .nack ++ .ack d :: rest →
    xfer dir n data s = (.ok, d, { s with link := ⟨rest, s.link.draws, s.link.trace ++
      (List.replicate k [.guardWait s.segtUs, .attempt dir s.i2cAddr n data .nack, .pollWait s.mpotUs]).flatten ++
      [.guardWait s.segtUs, .attempt dir s.i2cAddr n data (.ack d)]⟩ })

/-- R205: MAX_RETRIES NACKs end the transfer with ERR_NACK_TIMEOUT after exactly MAX_RETRIES attempts, with no wait after the
last, and no further answer is taken. -/
def Obligations.TransferTimesOutAfterMaxRetries : Prop :=
  ∀ (s : State) (dir : BusDir) (n k : Nat) (data : List Byte) (rest : List BusAnswer), maxRetries s = k + 1 →
    s.link.answers = List.replicate (k + 1) .nack ++ rest →
    xfer dir n data s = (.errNackTimeout, [], { s with link := ⟨rest, s.link.draws, s.link.trace ++
      (List.replicate k [.guardWait s.segtUs, .attempt dir s.i2cAddr n data .nack, .pollWait s.mpotUs]).flatten ++
      [.guardWait s.segtUs, .attempt dir s.i2cAddr n data .nack]⟩ })

/-- R205, R78: a SHORT or a FAULT ends the transfer at once with ERR_TRANSPORT, after the NACKs before it. -/
def Obligations.TransferStopsAtShortOrFault : Prop :=
  ∀ (s : State) (dir : BusDir) (n k : Nat) (data : List Byte) (a : BusAnswer) (rest : List BusAnswer), k < maxRetries s →
    (a = .fault ∨ ∃ j, j < n ∧ a = .short j) → s.link.answers = List.replicate k .nack ++ a :: rest →
    xfer dir n data s = (.errTransport, [], { s with link := ⟨rest, s.link.draws, s.link.trace ++
      (List.replicate k [.guardWait s.segtUs, .attempt dir s.i2cAddr n data .nack, .pollWait s.mpotUs]).flatten ++
      [.guardWait s.segtUs, .attempt dir s.i2cAddr n data a]⟩ })

/-- R212, R200: every transfer makes at least one and at most MAX_RETRIES attempts whatever the peer answers, and on OK a read
has exactly the bytes asked for. -/
def Obligations.TransferAttemptsAreBounded : Prop :=
  ∀ (s : State) (dir : BusDir) (n : Nat) (data : List Byte), ∃ st d l,
    xfer dir n data s = (st, d, { s with link := l }) ∧
    attempts s.link.trace + 1 ≤ attempts l.trace ∧ attempts l.trace ≤ attempts s.link.trace + maxRetries s ∧
    (st = .ok ∨ st = .errTransport ∨ st = .errNackTimeout) ∧
    (st = .ok → dir = .read → d.length = n) ∧ (st ≠ .ok → d = [])

/-! ## The block engine -/

/-- R236 with M = 0, its write ACKed: the I-block with the old N(S) goes out, N(S) is toggled, TXBUF holds the frame, the latch
follows P_LATCH_CLEAR, the response is OK; nothing else changes. -/
def Obligations.SendIUnchainedSends : Prop :=
  ∀ (s : State) (inf d : List Byte) (rest : List BusAnswer), inf.length ≤ 254 → s.link.answers = .ack d :: rest →
    exec (.sendI 0x00#8 inf) s =
      .next { ({ s with ns := !s.ns } : State).afterSend (buildFrame 0x5A#8 (if s.ns then 0x40#8 else 0x00#8) inf) rest with
        out := s.out ++ [⟨.ok, []⟩] }

/-- R236, R324: a SEND_I whose write fails, by a SHORT or a FAULT after fewer than MAX_RETRIES NACKs or by MAX_RETRIES NACKs, completes
with ERR_TRANSPORT or ERR_NACK_TIMEOUT, and keeps the toggle and the frame in TXBUF, with M = 0 and with M = 1. The latch is not
cleared, no other attempt is made, and nothing else changes. -/
def Obligations.FailedSendIKeepsItsWrites : Prop :=
  ∀ (s : State) (m : Bool) (inf : List Byte) (e : Status) (ans rest : List BusAnswer) (f : List Byte), inf.length ≤ 254 →
    f = buildFrame 0x5A#8 ((if s.ns then 0x40#8 else 0x00#8) ||| (if m then 0x20#8 else 0x00#8)) inf →
    TransferFails (5 + inf.length) (maxRetries s) e ans → s.link.answers = ans ++ rest →
    exec (.sendI (if m then 0x20#8 else 0x00#8) inf) s = .next { s with
      ns := !s.ns
      txbuf := f ++ List.replicate (254 - inf.length) 0#8
      txlen := 5 + inf.length
      link := ⟨rest, s.link.draws, s.link.trace ++ transferTrace s .write (5 + inf.length) f ans⟩
      out := s.out ++ [⟨e, []⟩] }

/-- R236 with M = 1 and R238: after the write, the first plain block decides: not an R-block, ERR_PROTO_PCB; an R-block whose N(R)
is not the new N(S), ERR_PROTO_NR; else OK. -/
def Obligations.SendIChainedChecksTheToken : Prop :=
  ∀ (s : State) (inf d tinf : List Byte) (nad pcb : Byte) (rest : List BusAnswer), inf.length ≤ 254 → tinf.length ≤ 254 →
    plainPcb pcb = true → s.link.answers = .ack d :: (blockAnswers (buildFrame nad pcb tinf) ++ rest) →
    exec (.sendI 0x20#8 inf) s =
      .next { (({ s with ns := !s.ns } : State).afterSend (buildFrame 0x5A#8 (if s.ns then 0x60#8 else 0x20#8) inf)
            (blockAnswers (buildFrame nad pcb tinf) ++ rest)).afterBlock (buildFrame nad pcb tinf) rest with
        out := s.out ++ [⟨if pcb &&& 0xC0#8 ≠ 0x80#8 then .errProtoPcb
          else if decide (pcb &&& 0x10#8 = 0x10#8) = !s.ns then .ok else .errProtoNr, []⟩] }

/-- R240, its write ACKed: the R-block with the host's N(R) and EE goes out with LEN = 0; NS and NR do not change. -/
def Obligations.SendRSends : Prop :=
  ∀ (s : State) (arg : Byte) (d : List Byte) (rest : List BusAnswer),
    arg ∈ [0x00#8, 0x01#8, 0x02#8, 0x10#8, 0x11#8, 0x12#8] → s.link.answers = .ack d :: rest →
    exec (.sendR arg []) s =
      .next { s.afterSend (buildFrame 0x5A#8 (0x80#8 + arg) []) rest with out := s.out ++ [⟨.ok, []⟩] }

/-- R242, its write ACKed: the S-block with the host's direction, type and INF goes out. -/
def Obligations.SendSSends : Prop :=
  ∀ (s : State) (arg : Byte) (inf d : List Byte) (rest : List BusAnswer), arg.toNat < 64 → inf.length ≤ 254 →
    s.link.answers = .ack d :: rest →
    exec (.sendS arg inf) s =
      .next { s.afterSend (buildFrame 0x5A#8 (0xC0#8 + arg) inf) rest with out := s.out ++ [⟨.ok, []⟩] }

/-- R246, R250: RECV returns NAD, PCB, LEN and INF of the first plain block; RXBUF, RXLEN and LAST_RX hold it, a NAD other than
0xA5 is recorded and not rejected; nothing else changes. -/
def Obligations.RecvReturnsAPlainBlock : Prop :=
  ∀ (s : State) (inf : List Byte) (nad pcb : Byte) (rest : List BusAnswer), inf.length ≤ 254 → plainPcb pcb = true →
    s.link.answers = blockAnswers (buildFrame nad pcb inf) ++ rest →
    exec (.recv 0x00#8 []) s =
      .next { s.afterBlock (buildFrame nad pcb inf) rest with
        out := s.out ++ [⟨.ok, [nad, pcb, BitVec.ofNat 8 inf.length] ++ inf⟩] }

/-- R250, R251, R320: RECV rejects a bad frame. A header with LEN above 254 gives ERR_PROTO_LEN after one read: RXBUF holds the five
bytes, the NAD is not tested. Wrong CRC bytes give ERR_PROTO_CRC: RXBUF holds the frame, the NAD test counts. LAST_RX does not
change in either. -/
def Obligations.RecvRejectsBadFrames : Prop :=
  (∀ (s : State) (nad pcb b3 b4 : Byte) (rest : List BusAnswer),
    s.link.answers = .ack [nad, pcb, 0xFF#8, b3, b4] :: rest →
    exec (.recv 0x00#8 []) s =
      .next { s with
        rxbuf := [nad, pcb, 0xFF#8, b3, b4] ++ List.replicate 254 0#8, rxlen := 5
        link := ⟨rest, s.link.draws, s.link.trace ++
          [.guardWait s.segtUs, .attempt .read s.i2cAddr 5 [] (.ack [nad, pcb, 0xFF#8, b3, b4])]⟩
        out := s.out ++ [⟨.errProtoLen, []⟩] }) ∧
  (∀ (s : State) (inf : List Byte) (nad pcb hi lo : Byte) (rest : List BusAnswer), inf.length ≤ 254 →
    hi.toNat * 256 + lo.toNat ≠ (crc16 ([nad, pcb, BitVec.ofNat 8 inf.length] ++ inf)).toNat →
    s.link.answers = blockAnswers ([nad, pcb, BitVec.ofNat 8 inf.length] ++ inf ++ [hi, lo]) ++ rest →
    exec (.recv 0x00#8 []) s =
      .next { s.afterBlock ([nad, pcb, BitVec.ofNat 8 inf.length] ++ inf ++ [hi, lo]) rest with
        lastRx := s.lastRx, out := s.out ++ [⟨.errProtoCrc, []⟩] })

/-- R36, R78, R201, R250: a read of a RECV that fails, by a SHORT or a FAULT after fewer than MAX_RETRIES NACKs or by MAX_RETRIES
NACKs, stores nothing: after a failing first read RXBUF is all zero and RXLEN 0; after a failing second read RXBUF holds the five
bytes of the first, which k NACKs may precede, and RXLEN is 5. The response is ERR_TRANSPORT or ERR_NACK_TIMEOUT, no other attempt
is made, and nothing else changes. -/
def Obligations.FailedReadsStoreNothing : Prop :=
  (∀ (s : State) (e : Status) (ans rest : List BusAnswer), TransferFails 5 (maxRetries s) e ans →
    s.link.answers = ans ++ rest →
    exec (.recv 0x00#8 []) s = .next { s with
      rxbuf := List.replicate 259 0#8, rxlen := 0
      link := ⟨rest, s.link.draws, s.link.trace ++ transferTrace s .read 5 [] ans⟩
      out := s.out ++ [⟨e, []⟩] }) ∧
  (∀ (s : State) (k : Nat) (nad pcb len b3 b4 : Byte) (e : Status) (first ans rest : List BusAnswer), k < maxRetries s →
    1 ≤ len.toNat → len.toNat ≤ 254 → first = List.replicate k .nack ++ [.ack [nad, pcb, len, b3, b4]] →
    TransferFails len.toNat (maxRetries s) e ans → s.link.answers = first ++ (ans ++ rest) →
    exec (.recv 0x00#8 []) s = .next { s with
      rxbuf := [nad, pcb, len, b3, b4] ++ List.replicate 254 0#8, rxlen := 5
      link := ⟨rest, s.link.draws, s.link.trace ++ transferTrace s .read 5 [] first ++
        transferTrace s .read len.toNat [] ans⟩
      out := s.out ++ [⟨e, []⟩] })

/-- R270: SOFT_RESET sends 5A CF 00 and its CRC; the response 0xEF gives its INF to the ATR cache; any other plain block gives
ERR_PROTO_PCB and leaves the cache. -/
def Obligations.SoftResetCachesTheAtr : Prop :=
  ∀ (s : State) (inf d : List Byte) (nad pcb : Byte) (rest : List BusAnswer), inf.length ≤ 254 → plainPcb pcb = true →
    s.link.answers = .ack d :: (blockAnswers (buildFrame nad pcb inf) ++ rest) →
    exec (.softReset 0x00#8 []) s =
      .next { (s.afterSend [0x5A#8, 0xCF#8, 0x00#8, 0x37#8, 0x7F#8]
            (blockAnswers (buildFrame nad pcb inf) ++ rest)).afterBlock (buildFrame nad pcb inf) rest with
        atrbuf := if pcb = 0xEF#8 then inf ++ List.replicate (254 - inf.length) 0#8 else s.atrbuf
        atrlen := if pcb = 0xEF#8 then inf.length else s.atrlen
        out := s.out ++ [⟨if pcb = 0xEF#8 then .ok else .errProtoPcb, []⟩] }

/-- R272: HARD_RESET sends 5A C6 00 and its CRC and expects 0xE6; the ATR cache does not change. -/
def Obligations.HardResetKeepsTheAtr : Prop :=
  ∀ (s : State) (inf d : List Byte) (nad pcb : Byte) (rest : List BusAnswer), inf.length ≤ 254 → plainPcb pcb = true →
    s.link.answers = .ack d :: (blockAnswers (buildFrame nad pcb inf) ++ rest) →
    exec (.hardReset 0x00#8 []) s =
      .next { (s.afterSend [0x5A#8, 0xC6#8, 0x00#8, 0x2F#8, 0xA8#8]
            (blockAnswers (buildFrame nad pcb inf) ++ rest)).afterBlock (buildFrame nad pcb inf) rest with
        out := s.out ++ [⟨if pcb = 0xE6#8 then .ok else .errProtoPcb, []⟩] }

/-- R239, R32: starting from N(S) = 0, after any commands (CLEAR_SEQ apart) N(S) is the number of legal SEND_I among them, modulo
2, whatever their outcomes. -/
def Obligations.SendSequenceCountsLegalSendI : Prop :=
  ∀ (cmds : List Instr) (s : State), s.ns = false →
    (∀ i ∈ cmds, i.layer = .command ∧ ∀ a d, i ≠ .clearSeq a d) →
    (runCommands cmds s).ns = decide (cmds.countP Instr.isLegalSendI % 2 = 1)

/-- R34, R232, R233, R258, R262: what clears a set latch. Under PER_EXCHANGE no instruction but END_EXCHANGE. Under PER_SEND only
END_EXCHANGE and a successful FrameSend: that of the command's own frame, or under OVERWRITE that of a WTX response; its ACKed
write is then among the events the instruction adds to the trace. -/
def Obligations.LatchIsClearedAsItsParameterSays : Prop :=
  (∀ (i : Instr) (s t : State), s.params.latchClear = .perExchange → s.latch = true → (∀ a d, i ≠ .endExchange a d) →
    exec i s = .next t → t.latch = true) ∧
  (∀ (i : Instr) (s t : State), s.params.latchClear = .perSend → s.latch = true → exec i s = .next t → t.latch = false →
    (∃ a d, i = .endExchange a d) ∨
    ∃ (pcb : Byte) (inf : List Byte) (ev : List BusEvent), t.link.trace = s.link.trace ++ ev ∧
      .attempt .write s.i2cAddr (5 + inf.length) (buildFrame 0x5A#8 pcb inf) (.ack []) ∈ ev ∧
      (i.sentBlock s.ns = some (pcb, inf) ∨
        (s.params.wtxCache = .overwrite ∧ pcb = 0xE3#8 ∧ inf.length = 1 ∧
          (i.receives = true ∨ (i = .sWtxRequest ∧ s.receiving ≠ none)))))

/-- R258, R262: with the latch set, an R-block with EE ≠ 0 ends RECV with ERR_RETX_EXHAUSTED: the block is read and nothing is
resent. -/
def Obligations.SecondResendFails : Prop :=
  ∀ (s : State) (inf : List Byte) (nad pcb : Byte) (rest : List BusAnswer), inf.length ≤ 254 → s.latch = true →
    pcb &&& 0xC0#8 = 0x80#8 → pcb &&& 0x03#8 ≠ 0#8 → s.link.answers = blockAnswers (buildFrame nad pcb inf) ++ rest →
    exec (.recv 0x00#8 []) s =
      .next { s.afterBlock (buildFrame nad pcb inf) rest with out := s.out ++ [⟨.errRetxExhausted, []⟩] }

/-- R251, R258, R262: with the latch clear, RECV answers an R-block with EE ≠ 0 by resending TXBUF[0..TXLEN) as it is, sets the
latch, and returns the plain block that follows. -/
def Obligations.FirstResendRepeatsTheCachedFrame : Prop :=
  ∀ (s : State) (einf inf d : List Byte) (enad epcb nad pcb : Byte) (rest : List BusAnswer), einf.length ≤ 254 →
    inf.length ≤ 254 → s.latch = false → s.txlen ≤ s.txbuf.length →
    epcb &&& 0xC0#8 = 0x80#8 → epcb &&& 0x03#8 ≠ 0#8 → plainPcb pcb = true →
    s.link.answers = blockAnswers (buildFrame enad epcb einf) ++ .ack d :: (blockAnswers (buildFrame nad pcb inf) ++ rest) →
    ∃ t, exec (.recv 0x00#8 []) s = .next t ∧ t.latch = true ∧ t.txbuf = s.txbuf ∧ t.txlen = s.txlen ∧
      t.link.answers = rest ∧
      t.link.trace = s.link.trace ++ readTrace s (buildFrame enad epcb einf) ++ writeTrace s (s.txbuf.take s.txlen) ++
        readTrace s (buildFrame nad pcb inf) ∧
      t.rxbuf.take t.rxlen = buildFrame nad pcb inf ∧ t.lastRx = ⟨nad, pcb, BitVec.ofNat 8 inf.length⟩ ∧
      t.out = s.out ++ [⟨.ok, [nad, pcb, BitVec.ofNat 8 inf.length] ++ inf⟩] ∧
      t.ns = s.ns ∧ t.nr = s.nr ∧ t.atrbuf = s.atrbuf ∧ t.atrlen = s.atrlen ∧ t.segtUs = s.segtUs ∧ t.mpotUs = s.mpotUs ∧
      t.bwtMs = s.bwtMs ∧ t.i2cAddr = s.i2cAddr

/-- R260: under BYPASS, up to MAX_RETRIES WTX requests before a block are transparent to the command that receives: the state
and the response are those of the peer sending the block alone, but for the trace, the draws, and NAD_MISMATCH, which differs
only if a request carried a NAD other than 0xA5. -/
def Obligations.WtxRequestsAreTransparent : Prop :=
  ∀ (c : Caller) (s : State) (ws : List (Byte × List Byte)) (nad pcb : Byte) (inf : List Byte) (rest : List BusAnswer),
    s.params.wtxCache = .bypass → (∀ w ∈ ws, w.2.length ≤ 254) → ws.length ≤ maxRetries s → inf.length ≤ 254 →
    plainPcb pcb = true →
    s.link.answers = ws.flatMap wtxAnswers ++ (blockAnswers (buildFrame nad pcb inf) ++ rest) →
    ∃ t t' : State,
      runReceive c s = t ∧
      runReceive c { s with link := { s.link with answers := blockAnswers (buildFrame nad pcb inf) ++ rest } } = t' ∧
      t = { t' with echoDraws := t.echoDraws, nadMismatch := t.nadMismatch,
                    link := { t'.link with trace := t.link.trace } } ∧
      t.rxbuf.take t.rxlen = buildFrame nad pcb inf ∧ t.lastRx = ⟨nad, pcb, BitVec.ofNat 8 inf.length⟩ ∧
      t.link.answers = rest ∧
      t.ns = s.ns ∧ t.nr = s.nr ∧ t.latch = s.latch ∧ t.txbuf = s.txbuf ∧ t.txlen = s.txlen ∧
      ((∀ w ∈ ws, w.1 = 0xA5#8) → t.nadMismatch = t'.nadMismatch)

/-- R251, R320: one WTX request more than MAX_RETRIES in one RECV gives ERR_WTX_LIMIT, with exactly MAX_RETRIES answered. -/
def Obligations.OneWtxRequestTooManyEndsRecv : Prop :=
  ∀ (s : State) (ws : List (Byte × List Byte)) (w : Byte × List Byte) (rest : List BusAnswer),
    (∀ v ∈ ws, v.2.length ≤ 254) → w.2.length ≤ 254 → ws.length = maxRetries s →
    s.link.answers = ws.flatMap wtxAnswers ++ (blockAnswers (buildFrame w.1 0xC3#8 w.2) ++ rest) →
    ∃ t, exec (.recv 0x00#8 []) s = .next t ∧ t.out = s.out ++ [⟨.errWtxLimit, []⟩] ∧ t.link.answers = rest ∧
      t.lastRx = ⟨w.1, 0xC3#8, BitVec.ofNat 8 w.2.length⟩

/-- R251, R326 and the model's receive phase (log 6): a receive taken block by block, by steps that each read a block and run its
row, ends after at most MAX_RETRIES + 1 steps in the very state in which the command's RecvBlock and what follows it end when
run at once. -/
def Obligations.ReceiveByStepsIsReceiveAtOnce : Prop :=
  ∀ (c : Caller) (s : State), s.resetPin = false → s.receiving = none →
    ∃ k, k ≤ maxRetries s ∧
      Sys2Proof.core.run (k + 1) { s with receiving := some ⟨c, maxRetries s⟩ } = .next (runReceive c s) ∧
      (c = .recv → exec (.recv 0x00#8 []) s = .next (runReceive c s))

/-! ## The block rows in a receive -/

/-- R114, R116, R246, R251: a returned block (an I-block, an R-block with EE = 0, every S-block but the WTX request: RESYNC, SET_IFS,
ABORT, EOA, RESET, ATR, SOFT_RESET requests and responses, the WTX response, the unnamed types) ends a RECV: the response is OK with
the first 3 + LEN bytes of RXBUF, and nothing else changes. -/
def Obligations.ReturnedBlockEndsRecv : Prop :=
  ∀ (i : Instr) (s : State) (left : Nat), i.wf = true → i.isReturned = true → s.receiving = some ⟨.recv, left⟩ →
    exec i s = .next { s with
      receiving := none
      out := s.out ++ [⟨.ok, s.rxbuf.take (3 + (byteAt s.rxbuf 2).toNat)⟩] }

/-- R238: a returned block ends a token check: OK only for an R-block with EE = 0 whose N(R) is the new N(S). -/
def Obligations.ReturnedBlockEndsTokenCheck : Prop :=
  ∀ (i : Instr) (s : State) (left : Nat), i.wf = true → i.isReturned = true → s.receiving = some ⟨.token, left⟩ →
    ∃ st, exec i s = .next { s with receiving := none, out := s.out ++ [⟨st, []⟩] } ∧
      (∀ nr i5 i32, i = .rBlockNoError nr i5 i32 → st = if nr = s.ns then .ok else .errProtoNr) ∧
      ((∀ nr i5 i32, i ≠ .rBlockNoError nr i5 i32) → st = .errProtoPcb)

/-- R270, R272: a returned block ends a SOFT_RESET or a HARD_RESET: only the response of the matching type gives OK, and only
that of SOFT_RESET writes the ATR cache. -/
def Obligations.ReturnedBlockEndsAReset : Prop :=
  ∀ (i : Instr) (s : State) (left : Nat), i.wf = true → i.isReturned = true →
    (s.receiving = some ⟨.softReset, left⟩ →
      exec i s = .next (if i = .sSoftResetResponse then
        { s with
          receiving := none
          atrlen := (byteAt s.rxbuf 2).toNat
          atrbuf := (s.rxbuf.drop 3).take (byteAt s.rxbuf 2).toNat ++
            List.replicate (254 - ((s.rxbuf.drop 3).take (byteAt s.rxbuf 2).toNat).length) 0#8
          out := s.out ++ [⟨.ok, []⟩] }
        else { s with receiving := none, out := s.out ++ [⟨.errProtoPcb, []⟩] })) ∧
    (s.receiving = some ⟨.hardReset, left⟩ →
      exec i s = .next { s with
        receiving := none, out := s.out ++ [⟨if i = .sResetResponse then .ok else .errProtoPcb, []⟩] })

/-- R115, R258: an R-block with EE = 1, 2 or 3 in a receive with re-entries left and the latch clear, its resend ACKed: the cached
frame is written as it is, the latch is set, one re-entry is used, the receive goes on; nothing else changes. -/
def Obligations.ErrorBlockResendsTheCachedFrame : Prop :=
  ∀ (s : State) (c : Caller) (left : Nat) (nr i5 : Bool) (i32 : BitVec 2) (d : List Byte) (rest : List BusAnswer),
    s.receiving = some ⟨c, left + 1⟩ → s.latch = false → s.txlen ≤ s.txbuf.length → s.link.answers = .ack d :: rest →
    ∀ i ∈ [Instr.rBlockCrcError nr i5 i32, .rBlockOtherError nr i5 i32, .rBlockUnnamedError nr i5 i32],
      exec i s = .next { s with
        receiving := some ⟨c, left⟩, latch := true
        link := ⟨rest, s.link.draws, s.link.trace ++ writeTrace s (s.txbuf.take s.txlen)⟩ }

/-- R251, R256: a WTX request in a receive with re-entries left, its response ACKed: the frame `5A E3 01 e CRC` is written, with e
the first INF byte, or for LEN = 0 a free byte, one per occurrence; one re-entry is used and the receive goes on. Under BYPASS
nothing else changes; under OVERWRITE the frame goes through TXBUF as FrameSend does it. -/
def Obligations.WtxRequestIsAnswered : Prop :=
  ∀ (s : State) (c : Caller) (left : Nat) (d : List Byte) (rest : List BusAnswer),
    s.receiving = some ⟨c, left + 1⟩ → s.link.answers = .ack d :: rest →
    ∃ (e : Byte) (k : Nat),
      (1 ≤ (byteAt s.rxbuf 2).toNat → e = byteAt s.rxbuf 3 ∧ k = s.echoDraws) ∧
      ((byteAt s.rxbuf 2).toNat = 0 → e = Config.echoByte s.echoDraws ∧ k = s.echoDraws + 1) ∧
      (s.params.wtxCache = .bypass → exec .sWtxRequest s = .next { s with
        receiving := some ⟨c, left⟩, echoDraws := k
        link := ⟨rest, s.link.draws, s.link.trace ++ writeTrace s (buildFrame 0x5A#8 0xE3#8 [e])⟩ }) ∧
      (s.params.wtxCache = .overwrite → exec .sWtxRequest s = .next
        { s.afterSend (buildFrame 0x5A#8 0xE3#8 [e]) rest with receiving := some ⟨c, left⟩, echoDraws := k })

/-- R251, R258, R323: with no re-entry left a WTX request and an R-block with EE = 1, 2 or 3 end the command with ERR_WTX_LIMIT,
latch or no latch; with one left and the latch set, the R-block ends it with ERR_RETX_EXHAUSTED; nothing is written to the bus. -/
def Obligations.BlocksStopAtTheLimits : Prop :=
  ∀ (s : State) (c : Caller) (left : Nat) (nr i5 : Bool) (i32 : BitVec 2),
    (s.receiving = some ⟨c, 0⟩ →
      exec .sWtxRequest s = .next { s with receiving := none, out := s.out ++ [⟨.errWtxLimit, []⟩] }) ∧
    ∀ i ∈ [Instr.rBlockCrcError nr i5 i32, .rBlockOtherError nr i5 i32, .rBlockUnnamedError nr i5 i32],
      (s.receiving = some ⟨c, 0⟩ →
        exec i s = .next { s with receiving := none, out := s.out ++ [⟨.errWtxLimit, []⟩] }) ∧
      (s.receiving = some ⟨c, left + 1⟩ → s.latch = true →
        exec i s = .next { s with receiving := none, out := s.out ++ [⟨.errRetxExhausted, []⟩] })

/-- R110, R251: the row a received PCB decodes to does what RecvBlock's two tests on the PCB do. -/
def Obligations.BlockRowsAgreeWithTheTests : Prop :=
  ∀ (pcb : Byte) (s : State), exec (decodeBlock pcb) s = .next (receiveBlock (pass pcb) pcb s)

/-- The model's own (log 7; from R207 and R211): outside a receive a block row changes nothing. -/
def Obligations.BlockOutsideAReceiveChangesNothing : Prop :=
  ∀ (i : Instr) (s : State), i.layer = .block → s.receiving = none → exec i s = .next s

/-! ## State control and registers -/

/-- R290: CLEAR_SEQ clears NS and NR and nothing else; ARG ≠ 0 or a DATA gives ERR_PARAM. -/
def Obligations.ClearSeqClearsTheSequenceNumbers : Prop :=
  ∀ (s : State) (arg : Byte) (data : List Byte), exec (.clearSeq arg data) s = .next
    (if arg = 0x00#8 ∧ data = [] then { s with ns := false, nr := false, out := s.out ++ [⟨.ok, []⟩] }
    else { s with out := s.out ++ [⟨.errParam, []⟩] })

/-- R291: END_EXCHANGE zeroes TXBUF and RXBUF, their lengths and the latch, and nothing else; ARG ≠ 0 or a DATA gives ERR_PARAM. -/
def Obligations.EndExchangeClearsTheExchange : Prop :=
  ∀ (s : State) (arg : Byte) (data : List Byte), exec (.endExchange arg data) s = .next
    (if arg = 0x00#8 ∧ data = [] then { s with
        txbuf := List.replicate 259 0#8, txlen := 0, rxbuf := List.replicate 259 0#8, rxlen := 0, latch := false
        out := s.out ++ [⟨.ok, []⟩] }
    else { s with out := s.out ++ [⟨.errParam, []⟩] })

/-- R293, R45, R46, R47, R41: RDREG answers the register's value, most significant byte first; a number above 0x0B gives ERR_REG,
a DATA ERR_PARAM; nothing changes. -/
def Obligations.RdregReadsEveryRegister : Prop :=
  ∀ (s : State) (reg : Byte),
    (∀ n : Nat, regValue reg s = some n →
      exec (.rdreg reg []) s = .next { s with
        out := s.out ++ [⟨.ok, [BitVec.ofNat 8 (n / 16777216), BitVec.ofNat 8 (n / 65536), BitVec.ofNat 8 (n / 256),
          BitVec.ofNat 8 n]⟩] }) ∧
    ((regValue reg s).isSome = decide (reg.toNat ≤ 0x0B)) ∧
    (∀ data : List Byte, 0x0B < reg.toNat → exec (.rdreg reg data) s = .next { s with out := s.out ++ [⟨.errReg, []⟩] }) ∧
    (∀ data : List Byte, reg.toNat ≤ 0x0B → data ≠ [] →
      exec (.rdreg reg data) s = .next { s with out := s.out ++ [⟨.errParam, []⟩] })

/-- R294, R38 to R40, R42, R44: WRREG puts a legal value into the named register; FLAGS is write-1-to-clear on bit 0. Another
register number gives ERR_REG; then a DATA that is not four bytes, then an illegal value, ERR_PARAM. Nothing else changes. -/
def Obligations.WrregWritesEveryWritableRegister : Prop :=
  ∀ (s : State) (b0 b1 b2 b3 : Byte),
    (natOfBytes [b0, b1, b2, b3] ≤ 65535 → exec (.wrreg 1#8 [b0, b1, b2, b3]) s =
      .next { s with segtUs := BitVec.ofNat 16 (natOfBytes [b0, b1, b2, b3]), out := s.out ++ [⟨.ok, []⟩] }) ∧
    (1 ≤ natOfBytes [b0, b1, b2, b3] → natOfBytes [b0, b1, b2, b3] ≤ 65535 → exec (.wrreg 2#8 [b0, b1, b2, b3]) s =
      .next { s with mpotUs := BitVec.ofNat 16 (natOfBytes [b0, b1, b2, b3]), out := s.out ++ [⟨.ok, []⟩] }) ∧
    (1 ≤ natOfBytes [b0, b1, b2, b3] → natOfBytes [b0, b1, b2, b3] ≤ 65535 → exec (.wrreg 3#8 [b0, b1, b2, b3]) s =
      .next { s with bwtMs := BitVec.ofNat 16 (natOfBytes [b0, b1, b2, b3]), out := s.out ++ [⟨.ok, []⟩] }) ∧
    (natOfBytes [b0, b1, b2, b3] ≤ 127 → exec (.wrreg 5#8 [b0, b1, b2, b3]) s =
      .next { s with i2cAddr := BitVec.ofNat 7 (natOfBytes [b0, b1, b2, b3]), out := s.out ++ [⟨.ok, []⟩] }) ∧
    (exec (.wrreg 9#8 [b0, b1, b2, b3]) s =
      .next { s with
        nadMismatch := if natOfBytes [b0, b1, b2, b3] % 2 = 1 then false else s.nadMismatch
        out := s.out ++ [⟨.ok, []⟩] }) ∧
    (65535 < natOfBytes [b0, b1, b2, b3] → ∀ reg ∈ [1#8, 2#8, 3#8],
      exec (.wrreg reg [b0, b1, b2, b3]) s = .next { s with out := s.out ++ [⟨.errParam, []⟩] }) ∧
    (∀ reg ∈ [2#8, 3#8], exec (.wrreg reg [0#8, 0#8, 0#8, 0#8]) s = .next { s with out := s.out ++ [⟨.errParam, []⟩] }) ∧
    (127 < natOfBytes [b0, b1, b2, b3] →
      exec (.wrreg 5#8 [b0, b1, b2, b3]) s = .next { s with out := s.out ++ [⟨.errParam, []⟩] }) ∧
    (∀ (reg : Byte) (data : List Byte), reg ∉ [1#8, 2#8, 3#8, 5#8, 9#8] →
      exec (.wrreg reg data) s = .next { s with out := s.out ++ [⟨.errReg, []⟩] }) ∧
    (∀ (reg : Byte) (data : List Byte), reg ∈ [1#8, 2#8, 3#8, 5#8, 9#8] → data.length ≠ 4 →
      exec (.wrreg reg data) s = .next { s with out := s.out ++ [⟨.errParam, []⟩] })

/-- R145, R41, R379: after SET_TIMING with legal values the three registers hold them, and MAX_RETRIES follows at once. -/
def Obligations.SetTimingSetsMaxRetries : Prop :=
  ∀ (s : State) (segt mpot bwt : Word), segt.toNat ≤ 65535 → 1 ≤ mpot.toNat → mpot.toNat ≤ 65535 → 1 ≤ bwt.toNat →
    bwt.toNat ≤ 65535 → ∃ t, runCommands (setTiming segt mpot bwt) s = t ∧
      t.segtUs.toNat = segt.toNat ∧ t.mpotUs.toNat = mpot.toNat ∧ t.bwtMs.toNat = bwt.toNat ∧
      regValue 4#8 t = some (max 1 (bwt.toNat * 1000 / mpot.toNat)) ∧
      t = { s with segtUs := t.segtUs, mpotUs := t.mpotUs, bwtMs := t.bwtMs,
                   out := s.out ++ [⟨.ok, []⟩, ⟨.ok, []⟩, ⟨.ok, []⟩] }

/-- R295: READ_BUF answers the valid bytes of TXBUF (0), RXBUF (1) or ATRBUF (2); another ARG or a DATA gives ERR_PARAM; nothing
changes. -/
def Obligations.ReadBufReadsEachBuffer : Prop :=
  ∀ s : State,
    exec (.readBuf 0#8 []) s = .next { s with out := s.out ++ [⟨.ok, s.txbuf.take s.txlen⟩] } ∧
    exec (.readBuf 1#8 []) s = .next { s with out := s.out ++ [⟨.ok, s.rxbuf.take s.rxlen⟩] } ∧
    exec (.readBuf 2#8 []) s = .next { s with out := s.out ++ [⟨.ok, s.atrbuf.take s.atrlen⟩] } ∧
    (∀ (arg : Byte) (data : List Byte), 2 < arg.toNat ∨ data ≠ [] →
      exec (.readBuf arg data) s = .next { s with out := s.out ++ [⟨.errParam, []⟩] })

/-- R297: a frame with an undefined opcode is consumed whole, completes ERR_ILLEGAL_CMD and changes nothing else, whatever its ARG
and DATA. -/
def Obligations.IllegalFramesAreConsumedWhole : Prop :=
  (∀ (s : State) (opc arg hi lo : Byte) (data rest : List Byte), s.resetPin = false → s.receiving = none →
    opc ∉ [0x01#8, 0x02#8, 0x03#8, 0x10#8, 0x11#8, 0x12#8, 0x13#8, 0x14#8, 0x15#8, 0x20#8, 0x21#8, 0x30#8, 0x31#8, 0x32#8] →
    data.length = hi.toNat * 256 + lo.toNat → s.port = opc :: arg :: hi :: lo :: (data ++ rest) →
    step s = .next { s with port := rest, out := s.out ++ [⟨.errIllegalCmd, []⟩] }) ∧
  (∀ (s : State) (opc arg : Byte) (data : List Byte),
    exec (.illegal opc arg data) s = .next { s with out := s.out ++ [⟨.errIllegalCmd, []⟩] })
end

