-- ==== Sys2Proof/Laws/State.lean ====
section
/-!
SUPPORT. One lemma per field for each operation that updates the state record, each true by rfl, so that no later proof
unfolds a record update.
-/

namespace Sys2Proof.Machine

/-! ## complete and raise -/

@[simp] theorem complete_ns (st : Status) (d : List Byte) (s : State) : (complete st d s).ns = s.ns := rfl
@[simp] theorem raise_ns (e : Status) (s : State) : (raise e s).ns = s.ns := rfl
@[simp] theorem complete_nr (st : Status) (d : List Byte) (s : State) : (complete st d s).nr = s.nr := rfl
@[simp] theorem raise_nr (e : Status) (s : State) : (raise e s).nr = s.nr := rfl
@[simp] theorem complete_latch (st : Status) (d : List Byte) (s : State) : (complete st d s).latch = s.latch := rfl
@[simp] theorem raise_latch (e : Status) (s : State) : (raise e s).latch = s.latch := rfl
@[simp] theorem complete_txbuf (st : Status) (d : List Byte) (s : State) : (complete st d s).txbuf = s.txbuf := rfl
@[simp] theorem raise_txbuf (e : Status) (s : State) : (raise e s).txbuf = s.txbuf := rfl
@[simp] theorem complete_txlen (st : Status) (d : List Byte) (s : State) : (complete st d s).txlen = s.txlen := rfl
@[simp] theorem raise_txlen (e : Status) (s : State) : (raise e s).txlen = s.txlen := rfl
@[simp] theorem complete_rxbuf (st : Status) (d : List Byte) (s : State) : (complete st d s).rxbuf = s.rxbuf := rfl
@[simp] theorem raise_rxbuf (e : Status) (s : State) : (raise e s).rxbuf = s.rxbuf := rfl
@[simp] theorem complete_rxlen (st : Status) (d : List Byte) (s : State) : (complete st d s).rxlen = s.rxlen := rfl
@[simp] theorem raise_rxlen (e : Status) (s : State) : (raise e s).rxlen = s.rxlen := rfl
@[simp] theorem complete_atrbuf (st : Status) (d : List Byte) (s : State) : (complete st d s).atrbuf = s.atrbuf := rfl
@[simp] theorem raise_atrbuf (e : Status) (s : State) : (raise e s).atrbuf = s.atrbuf := rfl
@[simp] theorem complete_atrlen (st : Status) (d : List Byte) (s : State) : (complete st d s).atrlen = s.atrlen := rfl
@[simp] theorem raise_atrlen (e : Status) (s : State) : (raise e s).atrlen = s.atrlen := rfl
@[simp] theorem complete_segtUs (st : Status) (d : List Byte) (s : State) : (complete st d s).segtUs = s.segtUs := rfl
@[simp] theorem raise_segtUs (e : Status) (s : State) : (raise e s).segtUs = s.segtUs := rfl
@[simp] theorem complete_mpotUs (st : Status) (d : List Byte) (s : State) : (complete st d s).mpotUs = s.mpotUs := rfl
@[simp] theorem raise_mpotUs (e : Status) (s : State) : (raise e s).mpotUs = s.mpotUs := rfl
@[simp] theorem complete_bwtMs (st : Status) (d : List Byte) (s : State) : (complete st d s).bwtMs = s.bwtMs := rfl
@[simp] theorem raise_bwtMs (e : Status) (s : State) : (raise e s).bwtMs = s.bwtMs := rfl
@[simp] theorem complete_i2cAddr (st : Status) (d : List Byte) (s : State) : (complete st d s).i2cAddr = s.i2cAddr := rfl
@[simp] theorem raise_i2cAddr (e : Status) (s : State) : (raise e s).i2cAddr = s.i2cAddr := rfl
@[simp] theorem complete_lastRx (st : Status) (d : List Byte) (s : State) : (complete st d s).lastRx = s.lastRx := rfl
@[simp] theorem raise_lastRx (e : Status) (s : State) : (raise e s).lastRx = s.lastRx := rfl
@[simp] theorem complete_nadMismatch (st : Status) (d : List Byte) (s : State) : (complete st d s).nadMismatch = s.nadMismatch := rfl
@[simp] theorem raise_nadMismatch (e : Status) (s : State) : (raise e s).nadMismatch = s.nadMismatch := rfl
@[simp] theorem complete_params (st : Status) (d : List Byte) (s : State) : (complete st d s).params = s.params := rfl
@[simp] theorem raise_params (e : Status) (s : State) : (raise e s).params = s.params := rfl
@[simp] theorem complete_receiving (st : Status) (d : List Byte) (s : State) : (complete st d s).receiving = s.receiving := rfl
@[simp] theorem raise_receiving (e : Status) (s : State) : (raise e s).receiving = s.receiving := rfl
@[simp] theorem complete_port (st : Status) (d : List Byte) (s : State) : (complete st d s).port = s.port := rfl
@[simp] theorem raise_port (e : Status) (s : State) : (raise e s).port = s.port := rfl
@[simp] theorem complete_resetPin (st : Status) (d : List Byte) (s : State) : (complete st d s).resetPin = s.resetPin := rfl
@[simp] theorem raise_resetPin (e : Status) (s : State) : (raise e s).resetPin = s.resetPin := rfl
@[simp] theorem complete_link (st : Status) (d : List Byte) (s : State) : (complete st d s).link = s.link := rfl
@[simp] theorem raise_link (e : Status) (s : State) : (raise e s).link = s.link := rfl
@[simp] theorem complete_echoDraws (st : Status) (d : List Byte) (s : State) : (complete st d s).echoDraws = s.echoDraws := rfl
@[simp] theorem raise_echoDraws (e : Status) (s : State) : (raise e s).echoDraws = s.echoDraws := rfl
@[simp] theorem complete_out (st : Status) (d : List Byte) (s : State) : (complete st d s).out = s.out ++ [⟨st, d⟩] := rfl
@[simp] theorem raise_out (e : Status) (s : State) : (raise e s).out = s.out ++ [⟨e, []⟩] := rfl

/-! ## blockReset -/

@[simp] theorem blockReset_ns (s : State) : (blockReset s).ns = State.reset.ns := rfl
@[simp] theorem blockReset_nr (s : State) : (blockReset s).nr = State.reset.nr := rfl
@[simp] theorem blockReset_latch (s : State) : (blockReset s).latch = State.reset.latch := rfl
@[simp] theorem blockReset_txbuf (s : State) : (blockReset s).txbuf = State.reset.txbuf := rfl
@[simp] theorem blockReset_txlen (s : State) : (blockReset s).txlen = State.reset.txlen := rfl
@[simp] theorem blockReset_rxbuf (s : State) : (blockReset s).rxbuf = State.reset.rxbuf := rfl
@[simp] theorem blockReset_rxlen (s : State) : (blockReset s).rxlen = State.reset.rxlen := rfl
@[simp] theorem blockReset_atrbuf (s : State) : (blockReset s).atrbuf = State.reset.atrbuf := rfl
@[simp] theorem blockReset_atrlen (s : State) : (blockReset s).atrlen = State.reset.atrlen := rfl
@[simp] theorem blockReset_segtUs (s : State) : (blockReset s).segtUs = State.reset.segtUs := rfl
@[simp] theorem blockReset_mpotUs (s : State) : (blockReset s).mpotUs = State.reset.mpotUs := rfl
@[simp] theorem blockReset_bwtMs (s : State) : (blockReset s).bwtMs = State.reset.bwtMs := rfl
@[simp] theorem blockReset_i2cAddr (s : State) : (blockReset s).i2cAddr = State.reset.i2cAddr := rfl
@[simp] theorem blockReset_lastRx (s : State) : (blockReset s).lastRx = State.reset.lastRx := rfl
@[simp] theorem blockReset_nadMismatch (s : State) : (blockReset s).nadMismatch = State.reset.nadMismatch := rfl
@[simp] theorem blockReset_params (s : State) : (blockReset s).params = s.params := rfl
@[simp] theorem blockReset_receiving (s : State) : (blockReset s).receiving = State.reset.receiving := rfl
@[simp] theorem blockReset_port (s : State) : (blockReset s).port = s.port := rfl
@[simp] theorem blockReset_resetPin (s : State) : (blockReset s).resetPin = State.reset.resetPin := rfl
@[simp] theorem blockReset_link (s : State) : (blockReset s).link = s.link := rfl
@[simp] theorem blockReset_echoDraws (s : State) : (blockReset s).echoDraws = s.echoDraws := rfl
@[simp] theorem blockReset_out (s : State) : (blockReset s).out = s.out := rfl

/-! ## placeFrame and placeBlock -/

@[simp] theorem placeFrame_ns (f : List Byte) (s : State) : (placeFrame f s).ns = s.ns := rfl
@[simp] theorem placeFrame_nr (f : List Byte) (s : State) : (placeFrame f s).nr = s.nr := rfl
@[simp] theorem placeFrame_latch (f : List Byte) (s : State) : (placeFrame f s).latch = s.latch := rfl
@[simp] theorem placeFrame_txbuf (f : List Byte) (s : State) : (placeFrame f s).txbuf = s.txbuf := rfl
@[simp] theorem placeFrame_txlen (f : List Byte) (s : State) : (placeFrame f s).txlen = s.txlen := rfl
@[simp] theorem placeFrame_rxbuf (f : List Byte) (s : State) : (placeFrame f s).rxbuf = s.rxbuf := rfl
@[simp] theorem placeFrame_rxlen (f : List Byte) (s : State) : (placeFrame f s).rxlen = s.rxlen := rfl
@[simp] theorem placeFrame_atrbuf (f : List Byte) (s : State) : (placeFrame f s).atrbuf = s.atrbuf := rfl
@[simp] theorem placeFrame_atrlen (f : List Byte) (s : State) : (placeFrame f s).atrlen = s.atrlen := rfl
@[simp] theorem placeFrame_segtUs (f : List Byte) (s : State) : (placeFrame f s).segtUs = s.segtUs := rfl
@[simp] theorem placeFrame_mpotUs (f : List Byte) (s : State) : (placeFrame f s).mpotUs = s.mpotUs := rfl
@[simp] theorem placeFrame_bwtMs (f : List Byte) (s : State) : (placeFrame f s).bwtMs = s.bwtMs := rfl
@[simp] theorem placeFrame_i2cAddr (f : List Byte) (s : State) : (placeFrame f s).i2cAddr = s.i2cAddr := rfl
@[simp] theorem placeFrame_lastRx (f : List Byte) (s : State) : (placeFrame f s).lastRx = s.lastRx := rfl
@[simp] theorem placeFrame_nadMismatch (f : List Byte) (s : State) : (placeFrame f s).nadMismatch = s.nadMismatch := rfl
@[simp] theorem placeFrame_params (f : List Byte) (s : State) : (placeFrame f s).params = s.params := rfl
@[simp] theorem placeFrame_receiving (f : List Byte) (s : State) : (placeFrame f s).receiving = none := rfl
@[simp] theorem placeFrame_port (f : List Byte) (s : State) : (placeFrame f s).port = f ++ s.port := rfl
@[simp] theorem placeFrame_resetPin (f : List Byte) (s : State) : (placeFrame f s).resetPin = false := rfl
@[simp] theorem placeFrame_link (f : List Byte) (s : State) : (placeFrame f s).link = s.link := rfl
@[simp] theorem placeFrame_echoDraws (f : List Byte) (s : State) : (placeFrame f s).echoDraws = s.echoDraws := rfl
@[simp] theorem placeFrame_out (f : List Byte) (s : State) : (placeFrame f s).out = s.out := rfl
@[simp] theorem placeBlock_ns (pcb : Byte) (s : State) : (placeBlock pcb s).ns = s.ns := rfl
@[simp] theorem placeBlock_nr (pcb : Byte) (s : State) : (placeBlock pcb s).nr = s.nr := rfl
@[simp] theorem placeBlock_latch (pcb : Byte) (s : State) : (placeBlock pcb s).latch = s.latch := rfl
@[simp] theorem placeBlock_txbuf (pcb : Byte) (s : State) : (placeBlock pcb s).txbuf = s.txbuf := rfl
@[simp] theorem placeBlock_txlen (pcb : Byte) (s : State) : (placeBlock pcb s).txlen = s.txlen := rfl
@[simp] theorem placeBlock_rxbuf (pcb : Byte) (s : State) : (placeBlock pcb s).rxbuf = s.rxbuf := rfl
@[simp] theorem placeBlock_rxlen (pcb : Byte) (s : State) : (placeBlock pcb s).rxlen = s.rxlen := rfl
@[simp] theorem placeBlock_atrbuf (pcb : Byte) (s : State) : (placeBlock pcb s).atrbuf = s.atrbuf := rfl
@[simp] theorem placeBlock_atrlen (pcb : Byte) (s : State) : (placeBlock pcb s).atrlen = s.atrlen := rfl
@[simp] theorem placeBlock_segtUs (pcb : Byte) (s : State) : (placeBlock pcb s).segtUs = s.segtUs := rfl
@[simp] theorem placeBlock_mpotUs (pcb : Byte) (s : State) : (placeBlock pcb s).mpotUs = s.mpotUs := rfl
@[simp] theorem placeBlock_bwtMs (pcb : Byte) (s : State) : (placeBlock pcb s).bwtMs = s.bwtMs := rfl
@[simp] theorem placeBlock_i2cAddr (pcb : Byte) (s : State) : (placeBlock pcb s).i2cAddr = s.i2cAddr := rfl
@[simp] theorem placeBlock_lastRx (pcb : Byte) (s : State) : (placeBlock pcb s).lastRx = s.lastRx := rfl
@[simp] theorem placeBlock_nadMismatch (pcb : Byte) (s : State) : (placeBlock pcb s).nadMismatch = s.nadMismatch := rfl
@[simp] theorem placeBlock_params (pcb : Byte) (s : State) : (placeBlock pcb s).params = s.params := rfl
@[simp] theorem placeBlock_receiving (pcb : Byte) (s : State) : (placeBlock pcb s).receiving = some (s.receiving.getD ⟨.recv, maxRetries s⟩) := rfl
@[simp] theorem placeBlock_port (pcb : Byte) (s : State) : (placeBlock pcb s).port = s.port := rfl
@[simp] theorem placeBlock_resetPin (pcb : Byte) (s : State) : (placeBlock pcb s).resetPin = false := rfl
@[simp] theorem placeBlock_link (pcb : Byte) (s : State) : (placeBlock pcb s).link = { s.link with answers := .ack (buildFrame Config.nadPeer pcb []) :: s.link.answers } := rfl
@[simp] theorem placeBlock_echoDraws (pcb : Byte) (s : State) : (placeBlock pcb s).echoDraws = s.echoDraws := rfl
@[simp] theorem placeBlock_out (pcb : Byte) (s : State) : (placeBlock pcb s).out = s.out := rfl

/-! ## Link.record -/

@[simp] theorem record_answers (l : Link) (e : BusEvent) : (l.record e).answers = l.answers := rfl
@[simp] theorem record_draws (l : Link) (e : BusEvent) : (l.record e).draws = l.draws := rfl
@[simp] theorem record_trace (l : Link) (e : BusEvent) : (l.record e).trace = l.trace ++ [e] := rfl

/-! ## Views that read only some fields -/

/-- MAX_RETRIES depends on BWT_MS and MPOT_US only (R41). -/
theorem maxRetries_congr {s t : State} (hb : s.bwtMs = t.bwtMs) (hm : s.mpotUs = t.mpotUs) :
    maxRetries s = maxRetries t := by
  simp [maxRetries, hb, hm]

/-- MAX_RETRIES is at least 1 (R41). -/
theorem one_le_maxRetries (s : State) : 1 ≤ maxRetries s := Nat.le_max_left 1 _

@[simp] theorem maxRetries_complete (st : Status) (d : List Byte) (s : State) :
    maxRetries (complete st d s) = maxRetries s := rfl

end Sys2Proof.Machine
end

