-- ==== Sys2Proof/Laws/Ops.lean ====
section
/-!
SUPPORT. One lemma per shared operation that says what it can do: the byte arrays, the bus port and the arbiter, the engine's
internal procedures.
-/

namespace Sys2Proof.Machine

/-! ## Bytes and buffers -/

@[simp] theorem zeros_length (n : Nat) : (zeros n).length = n := by simp [zeros]

@[simp] theorem byteAt_cons_zero (b : Byte) (s : List Byte) : byteAt (b :: s) 0 = b := rfl

@[simp] theorem byteAt_cons_succ (b : Byte) (s : List Byte) (i : Nat) : byteAt (b :: s) (i + 1) = byteAt s i := rfl

theorem byteAt_append_left {s t : List Byte} {i : Nat} (h : i < s.length) : byteAt (s ++ t) i = byteAt s i := by
  simp [byteAt, List.getElem?_append_left h]

theorem byteAt_append_right {s t : List Byte} {i : Nat} (h : s.length ≤ i) :
    byteAt (s ++ t) i = byteAt t (i - s.length) := by
  simp [byteAt, List.getElem?_append_right h]

theorem byteAt_take {s : List Byte} {i n : Nat} (h : i < n) : byteAt (s.take n) i = byteAt s i := by
  simp [byteAt, h]

/-- A buffer holding `d` from 0 on, over zeros, is `d` and then zeros. -/
theorem bufWrite_zeros_zero {size : Nat} {d : List Byte} : bufWrite (zeros size) 0 d = bufFill size d := by
  simp [bufWrite, bufFill, zeros, List.drop_replicate]

/-- Storing `e` right behind `d` in a buffer that holds `d` and zeros. -/
theorem bufWrite_bufFill {size : Nat} {d e : List Byte} :
    bufWrite (bufFill size d) d.length e = bufFill size (d ++ e) := by
  simp [bufWrite, bufFill, zeros, List.drop_append, List.drop_replicate, List.append_assoc, Nat.sub_sub]

theorem bufWrite_length {b : List Byte} {off : Nat} {d : List Byte} (h : off + d.length ≤ b.length) :
    (bufWrite b off d).length = b.length := by
  simp [bufWrite, List.length_take]
  omega

theorem bufFill_length {size : Nat} {d : List Byte} (h : d.length ≤ size) : (bufFill size d).length = size := by
  simp [bufFill]
  omega

@[simp] theorem take_bufFill {size : Nat} {d : List Byte} : (bufFill size d).take d.length = d := by
  simp [bufFill]

@[simp] theorem drop_bufFill {size : Nat} {d : List Byte} :
    (bufFill size d).drop d.length = zeros (size - d.length) := by
  simp [bufFill]

/-- A filled buffer is in canonical form. -/
theorem bufWf_bufFill {size : Nat} {d : List Byte} (h : d.length ≤ size) : bufWf size d.length (bufFill size d) = true := by
  simp [bufWf, bufFill_length h, h, zeros]

theorem bufWf_zeros (size : Nat) : bufWf size 0 (zeros size) = true := by
  simp [bufWf, zeros]

theorem byteAt_bufFill {size i : Nat} {d : List Byte} (h : i < d.length) : byteAt (bufFill size d) i = byteAt d i :=
  byteAt_append_left h

/-! ## Frames -/

@[simp] theorem frameBody_length (nad pcb : Byte) (inf : List Byte) : (frameBody nad pcb inf).length = 3 + inf.length := by
  simp [frameBody]; omega

@[simp] theorem buildFrame_length (nad pcb : Byte) (inf : List Byte) : (buildFrame nad pcb inf).length = 5 + inf.length := by
  simp [buildFrame]; omega

@[simp] theorem byteAt_buildFrame_zero (nad pcb : Byte) (inf : List Byte) : byteAt (buildFrame nad pcb inf) 0 = nad := rfl

@[simp] theorem byteAt_buildFrame_one (nad pcb : Byte) (inf : List Byte) : byteAt (buildFrame nad pcb inf) 1 = pcb := rfl

@[simp] theorem byteAt_buildFrame_two (nad pcb : Byte) (inf : List Byte) :
    byteAt (buildFrame nad pcb inf) 2 = BitVec.ofNat 8 inf.length := rfl

theorem frameLen_buildFrame (nad pcb : Byte) {inf : List Byte} (h : inf.length ≤ 254) :
    frameLen (buildFrame nad pcb inf) = inf.length := by
  simp [frameLen, BitVec.toNat_ofNat]; omega

/-! ## The bus port and the arbiter -/

/-- Every answer that reaches the framer is one R200 allows. -/
theorem shapeAnswer_read {n : Nat} {a : BusAnswer} {d : List Byte} (h : shapeAnswer .read n a = .ack d) : d.length = n := by
  cases a with
  | ack e =>
    simp only [shapeAnswer] at h
    split at h
    · cases h; simp; omega
    · cases h
  | nack => cases h
  | short k => simp only [shapeAnswer] at h; split at h <;> cases h
  | fault => cases h

theorem shapeAnswer_write {n : Nat} {a : BusAnswer} {d : List Byte} (h : shapeAnswer .write n a = .ack d) : d = [] := by
  cases a with
  | ack e => simpa [shapeAnswer] using h.symm
  | nack => cases h
  | short k => simp only [shapeAnswer] at h; split at h <;> cases h
  | fault => cases h

theorem shapeAnswer_short {dir : BusDir} {n k : Nat} {a : BusAnswer} (h : shapeAnswer dir n a = .short k) : k < n := by
  cases a with
  | ack e =>
    cases dir with
    | write => cases h
    | read =>
      simp only [shapeAnswer] at h
      split at h
      · cases h
      · cases h; omega
  | nack => cases h
  | short j =>
    simp only [shapeAnswer] at h
    split at h
    · cases h; assumption
    · cases h
  | fault => cases h

/-- One attempt: its answer is shaped, and it is the one event added to the trace. -/
theorem busAttempt_trace (addr : BitVec 7) (dir : BusDir) (n : Nat) (data : List Byte) (l : Link) :
    (busAttempt addr dir n data l).2.trace = l.trace ++ [.attempt dir addr n data (busAttempt addr dir n data l).1] := by
  simp only [busAttempt, nextChoice]
  split <;> rfl

theorem busAttempt_answer (addr : BitVec 7) (dir : BusDir) (n : Nat) (data : List Byte) (l : Link) :
    ∃ a, (busAttempt addr dir n data l).1 = shapeAnswer dir n a := by
  exact ⟨_, rfl⟩

/-- An attempt whose answer is written down takes it. -/
theorem busAttempt_cons (addr : BitVec 7) (dir : BusDir) (n : Nat) (data : List Byte) {l : Link} {a : BusAnswer}
    {rest : List BusAnswer} (h : l.answers = a :: rest) :
    busAttempt addr dir n data l =
      (shapeAnswer dir n a,
        ⟨rest, l.draws, l.trace ++ [.attempt dir addr n data (shapeAnswer dir n a)]⟩) := by
  simp [busAttempt, nextChoice, h, Link.record]

/-- What a transfer can answer (R205): OK with the bytes of one whole read (none for a write), or one of two errors with none. -/
theorem xferRetry_result (s : State) (dir : BusDir) (n : Nat) (data : List Byte) (left : Nat) (l : Link) :
    ((xferRetry s dir n data left l).1 = .ok ∧
      (xferRetry s dir n data left l).2.1.length = (match dir with | .read => n | .write => 0)) ∨
    ((xferRetry s dir n data left l).1 = .errTransport ∧ (xferRetry s dir n data left l).2.1 = []) ∨
    ((xferRetry s dir n data left l).1 = .errNackTimeout ∧ (xferRetry s dir n data left l).2.1 = []) := by
  induction left generalizing l with
  | zero => simp [xferRetry]
  | succ k ih =>
    rw [xferRetry]
    obtain ⟨a, ha⟩ := busAttempt_answer s.i2cAddr dir n data (l.record (.guardWait s.segtUs))
    split
    · rename_i d l1 hb
      rw [hb] at ha
      refine .inl ⟨rfl, ?_⟩
      cases dir with
      | read => exact shapeAnswer_read ha.symm
      | write => simp [shapeAnswer_write ha.symm]
    · exact ih _
    · exact .inr (.inl ⟨rfl, rfl⟩)
    · exact .inr (.inl ⟨rfl, rfl⟩)

/-- A transfer whose first answer is written down and is an ACK. -/
theorem xferRetry_ack (s : State) (dir : BusDir) (n : Nat) (data d : List Byte) (left : Nat) {l : Link} {a : BusAnswer}
    {rest : List BusAnswer} (h : l.answers = a :: rest) (ha : shapeAnswer dir n a = .ack d) :
    xferRetry s dir n data (left + 1) l =
      (.ok, d, ⟨rest, l.draws, l.trace ++ [.guardWait s.segtUs, .attempt dir s.i2cAddr n data (.ack d)]⟩) := by
  rw [xferRetry, busAttempt_cons (rest := rest) (a := a) _ _ _ _ (by simpa using h), ha]
  simp

/-- A transfer writes nothing of the state but the bus port (R205). -/
theorem xfer_state (dir : BusDir) (n : Nat) (data : List Byte) (s : State) :
    ∃ l, (xfer dir n data s).2.2 = { s with link := l } := ⟨_, rfl⟩

theorem xfer_eq (dir : BusDir) (n : Nat) (data : List Byte) (s : State) :
    xfer dir n data s =
      ((xferRetry s dir n data (maxRetries s) s.link).1, (xferRetry s dir n data (maxRetries s) s.link).2.1,
        { s with link := (xferRetry s dir n data (maxRetries s) s.link).2.2 }) := rfl

/-- A transfer whose first answer is written down and is an ACK. -/
theorem xfer_ack {dir : BusDir} {n : Nat} {data d : List Byte} {s : State} {a : BusAnswer} {rest : List BusAnswer}
    (h : s.link.answers = a :: rest) (ha : shapeAnswer dir n a = .ack d) :
    xfer dir n data s =
      (.ok, d, { s with link := ⟨rest, s.link.draws,
        s.link.trace ++ [.guardWait s.segtUs, .attempt dir s.i2cAddr n data (.ack d)]⟩ }) := by
  obtain ⟨k, hk⟩ : ∃ k, maxRetries s = k + 1 := ⟨maxRetries s - 1, by have := one_le_maxRetries s; omega⟩
  simp [xfer, hk, xferRetry_ack s dir n data d k h ha]

/-- The events of a transfer with k NACKed attempts and one more. -/
theorem transferTrace_nacks (s : State) (dir : BusDir) (n : Nat) (data : List Byte) (k : Nat) (a : BusAnswer) :
    transferTrace s dir n data (List.replicate k .nack ++ [a]) =
      (List.replicate k [.guardWait s.segtUs, .attempt dir s.i2cAddr n data .nack, .pollWait s.mpotUs]).flatten ++
        [.guardWait s.segtUs, .attempt dir s.i2cAddr n data a] := by
  induction k with
  | zero => rfl
  | succ k ih =>
    rw [List.replicate_succ, List.replicate_succ, List.flatten_cons, List.append_assoc, ← ih]
    cases k <;> rfl

/-! ## The engine's internal procedures: what they write -/

/-- FrameSend writes TXBUF, TXLEN and LATCH, and the bus port (R232). -/
theorem frameSend_state (pcb : Byte) (inf : List Byte) (s : State) :
    ∃ b l, (frameSend pcb inf s).2 = { loadTx pcb inf s with latch := b, link := l } := by
  simp only [frameSend, xfer_eq]
  split
  · rename_i h
    obtain ⟨-, h⟩ := Prod.mk.inj h
    obtain ⟨-, h⟩ := Prod.mk.inj h
    subst h
    exact ⟨_, _, rfl⟩
  · rename_i h
    obtain ⟨-, h⟩ := Prod.mk.inj h
    obtain ⟨-, h⟩ := Prod.mk.inj h
    subst h
    exact ⟨s.latch, _, rfl⟩

/-- A FrameSend whose write is ACKed at the first attempt (R232). -/
theorem frameSend_ack {pcb : Byte} {inf : List Byte} {s : State} {d : List Byte} {rest : List BusAnswer}
    (h : s.link.answers = .ack d :: rest) :
    frameSend pcb inf s = (.ok, { loadTx pcb inf s with
      latch := latchAfterSend s
      link := ⟨rest, s.link.draws, s.link.trace ++ [.guardWait s.segtUs,
        .attempt .write s.i2cAddr (5 + inf.length) (buildFrame Config.nadHost pcb inf) (.ack [])]⟩ }) := by
  have hx := xfer_ack (dir := .write) (n := (loadTx pcb inf s).txlen) (data := txFrame (loadTx pcb inf s))
    (s := loadTx pcb inf s) (d := []) (rest := rest) (a := .ack d) h rfl
  have ht : txFrame (loadTx pcb inf s) = buildFrame Config.nadHost pcb inf := take_bufFill
  have hl : (loadTx pcb inf s).txlen = 5 + inf.length := buildFrame_length _ _ _
  rw [ht, hl] at hx
  simp only [frameSend, ht, hx, hl]
  rfl

/-- The same, in the terms of `State.afterSend`. -/
theorem frameSend_afterSend {pcb : Byte} {inf : List Byte} {s : State} {d : List Byte} {rest : List BusAnswer}
    (h : s.link.answers = .ack d :: rest) :
    frameSend pcb inf s = (.ok, s.afterSend (buildFrame Config.nadHost pcb inf) rest) := by
  rw [frameSend_ack h]
  simp only [loadTx, State.afterSend, writeTrace, bufFill, zeros, buildFrame_length, latchAfterSend, Config.nadHost,
    Config.frameBytes]
  cases s.params.latchClear <;> rfl

/-- acceptFrame writes NAD_MISMATCH and LAST_RX (R250). -/
theorem acceptFrame_state (s : State) :
    ∃ nm lr, (acceptFrame s).2 = { s with nadMismatch := nm, lastRx := lr } := by
  simp only [acceptFrame]
  split
  · exact ⟨_, _, rfl⟩
  · exact ⟨_, s.lastRx, rfl⟩

/-- ReadBlock writes RXBUF, RXLEN, NAD_MISMATCH and LAST_RX, and the bus port (R250). -/
theorem readBlock_state (s : State) :
    ∃ rb rl nm lr l, (readBlock s).2 =
      { s with rxbuf := rb, rxlen := rl, nadMismatch := nm, lastRx := lr, link := l } := by
  simp only [readBlock, xfer_eq]
  split
  · rename_i h1
    obtain ⟨-, h1⟩ := Prod.mk.inj h1
    obtain ⟨-, h1⟩ := Prod.mk.inj h1
    subst h1
    split
    · exact ⟨_, _, s.nadMismatch, s.lastRx, _, rfl⟩
    · split
      · obtain ⟨nm, lr, h⟩ := acceptFrame_state _
        exact ⟨_, _, nm, lr, _, h⟩
      · split
        · rename_i h2
          obtain ⟨-, h2⟩ := Prod.mk.inj h2
          obtain ⟨-, h2⟩ := Prod.mk.inj h2
          subst h2
          obtain ⟨nm, lr, h⟩ := acceptFrame_state _
          exact ⟨_, _, nm, lr, _, h⟩
        · rename_i h2
          obtain ⟨-, h2⟩ := Prod.mk.inj h2
          obtain ⟨-, h2⟩ := Prod.mk.inj h2
          subst h2
          exact ⟨_, _, s.nadMismatch, s.lastRx, _, rfl⟩
  · rename_i h1
    obtain ⟨-, h1⟩ := Prod.mk.inj h1
    obtain ⟨-, h1⟩ := Prod.mk.inj h1
    subst h1
    exact ⟨_, _, s.nadMismatch, s.lastRx, _, rfl⟩

/-- A ReadBlock whose reads are ACKed at the first attempt with a frame of 5 + LEN bytes, LEN ≤ 254 (R250): the frame is in RXBUF,
and the CRC decides the status and LAST_RX. -/
theorem readBlock_frame {s : State} {f : List Byte} {rest : List BusAnswer} (hl : f.length = 5 + frameLen f)
    (h254 : frameLen f ≤ 254) (h : s.link.answers = blockAnswers f ++ rest) :
    readBlock s = (if (verifyFrame f).2 then .ok else .errProtoCrc,
      { s.afterBlock f rest with
        lastRx := if (verifyFrame f).2 then ⟨byteAt f 0, byteAt f 1, byteAt f 2⟩ else s.lastRx }) := by
  have h5 : (f.take 5).length = 5 := by simp; omega
  have hx := xfer_ack (dir := .read) (n := 5) (data := []) (s := clearRx s) (a := .ack (f.take 5)) (d := f.take 5)
    (rest := (if f.length ≤ 5 then [] else [.ack (f.drop 5)]) ++ rest) (by rw [show (clearRx s).link.answers = s.link.answers from rfl, h]; rfl)
    (by simp only [shapeAnswer, h5]; rw [if_pos (by omega), List.take_of_length_le (by omega)])
  simp only [readBlock, hx]
  have hb : ∀ l, storeRx 0 (f.take 5) { clearRx s with link := l } =
      { s with rxbuf := bufFill 259 (f.take 5), rxlen := 5, link := l } := by
    intro l
    simp only [storeRx, clearRx]
    rw [show Config.frameBytes = 259 from rfl, bufWrite_zeros_zero, h5]
  simp only [hb]
  have hfl : frameLen (bufFill 259 (f.take 5)) = frameLen f := by
    simp only [frameLen, byteAt_bufFill (show 2 < (f.take 5).length by omega), byteAt_take (show 2 < 5 by omega)]
  simp only [hfl, Config.maxInf]
  rw [if_neg (by omega)]
  by_cases h0 : frameLen f = 0
  · have hf5 : f.length = 5 := by omega
    have htake : f.take 5 = f := List.take_of_length_le (by omega)
    rw [if_pos h0, htake]
    have hr : ∀ l, rxFrame { s with rxbuf := bufFill 259 f, rxlen := 5, link := l } = f := by
      intro l
      show (bufFill 259 f).take 5 = f
      have := take_bufFill (size := 259) (d := f)
      rwa [hf5] at this
    simp only [acceptFrame, hr]
    have hn : (verifyFrame f).1 = (byteAt f 0 == 0xA5#8) := rfl
    have ht : readTrace s f = [.guardWait s.segtUs, .attempt .read s.i2cAddr 5 [] (.ack f)] := by
      simp [readTrace, hf5, htake]
    have hr2 : (if f.length ≤ 5 then [] else [BusAnswer.ack (f.drop 5)]) ++ rest = rest := by simp [hf5]
    simp only [State.afterBlock, ht, hf5, bufFill, zeros, Nat.le_refl, if_true, List.nil_append]
    cases (verifyFrame f).2 <;> rfl
  · rw [if_neg h0]
    have hf5 : ¬ f.length ≤ 5 := by omega
    have hd : (f.drop 5).length = frameLen f := by simp; omega
    rw [xfer_ack (dir := .read) (n := frameLen f) (data := []) (a := .ack (f.drop 5)) (d := f.drop 5)
      (rest := rest) (by simp [hf5]) (by simp only [shapeAnswer, hd]; rw [if_pos (by omega), List.take_of_length_le (by omega)])]
    simp only
    have hs : ∀ l, storeRx 5 (f.drop 5) { s with rxbuf := bufFill 259 (f.take 5), rxlen := 5, link := l } =
       { s with rxbuf := bufFill 259 f, rxlen := f.length, link := l } := by
      intro l
      have := bufWrite_bufFill (size := 259) (d := f.take 5) (e := f.drop 5)
      rw [h5, List.take_append_drop] at this
      simp only [storeRx, this, hd, hl]
    simp only [hs]
    have hr : ∀ l, rxFrame { s with rxbuf := bufFill 259 f, rxlen := f.length, link := l } = f := by
      intro l; exact take_bufFill
    simp only [acceptFrame, hr]
    have hn : (verifyFrame f).1 = (byteAt f 0 == 0xA5#8) := rfl
    have hdl : f.length - 5 = frameLen f := by omega
    have ht : readTrace s f = [.guardWait s.segtUs, .attempt .read s.i2cAddr 5 [] (.ack (f.take 5))] ++
        [.guardWait s.segtUs, .attempt .read s.i2cAddr (frameLen f) [] (.ack (f.drop 5))] := by
      simp [readTrace, hf5, hdl]
    simp only [State.afterBlock, ht, ← List.append_assoc]
    cases (verifyFrame f).2 <;> rfl

/-- Retransmit writes LATCH and the bus port (R258). -/
theorem retransmit_state (s : State) : ∃ b l, (retransmit s).2 = { s with latch := b, link := l } := by
  simp only [retransmit]
  split
  · exact ⟨s.latch, s.link, rfl⟩
  · exact ⟨true, _, rfl⟩

/-- WtxRespond writes the bus port, and under OVERWRITE what FrameSend writes (R256). -/
theorem wtxRespond_state (e : Byte) (s : State) :
    ∃ tb tl b l, (wtxRespond e s).2 = { s with txbuf := tb, txlen := tl, latch := b, link := l } := by
  simp only [wtxRespond]
  split
  · exact ⟨s.txbuf, s.txlen, s.latch, _, rfl⟩
  · obtain ⟨b, l, h⟩ := frameSend_state (packS true 3#5) [e] s
    exact ⟨_, _, b, l, h⟩

/-- Drawing the echo byte writes its counter at most (R251). -/
theorem wtxEcho_state (s : State) : ∃ k, (wtxEcho s).2 = { s with echoDraws := k } := by
  simp only [wtxEcho]
  split
  · exact ⟨s.echoDraws, rfl⟩
  · exact ⟨_, rfl⟩

/-- A pass of RecvBlock's loop writes TXBUF, TXLEN, LATCH, the bus port and the draw counter at most. -/
theorem pass_state (pcb : Byte) (left : Nat) (s : State) :
    ∃ tb tl b l k, (pass pcb left s).2 =
      { s with txbuf := tb, txlen := tl, latch := b, link := l, echoDraws := k } := by
  have same : ∃ tb tl b l k, s = { s with txbuf := tb, txlen := tl, latch := b, link := l, echoDraws := k } :=
    ⟨_, _, _, _, _, rfl⟩
  simp only [pass]
  split
  · simp only [passWtxRequest]
    split
    · exact same
    · obtain ⟨k, hk⟩ := wtxEcho_state s
      obtain ⟨tb, tl, b, l, h⟩ := wtxRespond_state (wtxEcho s).1 (wtxEcho s).2
      rw [hk] at h
      split <;> (rename_i h1; rw [hk] at h1; rw [h1] at h; exact ⟨tb, tl, b, l, k, h⟩)
  · split
    · simp only [passRError]
      split
      · exact same
      · obtain ⟨b, l, h⟩ := retransmit_state s
        split <;> (rename_i h1; rw [h1] at h; exact ⟨_, _, b, l, s.echoDraws, h⟩)
    · exact same

/-- With no re-entry left no pass goes on (R251). -/
theorem pass_zero (pcb : Byte) (s : State) : (pass pcb 0 s).1 ≠ .again := by
  simp only [pass, passWtxRequest, passRError, passReturned]
  split
  · simp
  · split <;> simp

/-- RecvBlock's equation when ReadBlock succeeds and the pass goes on. -/
theorem recvBlock_again {left : Nat} {s s1 s2 : State} (h1 : readBlock s = (.ok, s1))
    (h2 : pass (byteAt s1.rxbuf 1) (left + 1) s1 = (.again, s2)) :
    recvBlock (left + 1) s = recvBlock left s2 := by
  rw [recvBlock, h1]
  simp only [h2]

/-- RecvBlock's equation when ReadBlock succeeds and the pass stops. -/
theorem recvBlock_done {left : Nat} {s s1 s2 : State} {st : Status} (h1 : readBlock s = (.ok, s1))
    (h2 : pass (byteAt s1.rxbuf 1) left s1 = (.done st, s2)) :
    recvBlock left s = (st, s2) := by
  rw [recvBlock.eq_def, h1]
  simp only [h2]

/-- RecvBlock's equation when ReadBlock fails. -/
theorem recvBlock_error {left : Nat} {s s1 : State} {e : Status} (h1 : readBlock s = (e, s1)) (he : e ≠ .ok) :
    recvBlock left s = (e, s1) := by
  rw [recvBlock.eq_def, h1]
  cases e <;> first | rfl | exact absurd rfl he

/-- What RecvBlock can do, as an induction: a relation between the state before and after that ReadBlock, the passes and
composition keep holds of RecvBlock. -/
theorem recvBlock_induct {R : State → State → Prop} (htrans : ∀ a b c, R a b → R b c → R a c)
    (hread : ∀ s, R s (readBlock s).2) (hpass : ∀ pcb left s, R s (pass pcb left s).2) (left : Nat) (s : State) :
    R s (recvBlock left s).2 := by
  induction left generalizing s with
  | zero =>
    rcases h1 : readBlock s with ⟨st, s1⟩
    have r1 : R s s1 := by simpa [h1] using hread s
    by_cases hst : st = .ok
    · subst hst
      rcases h2 : pass (byteAt s1.rxbuf 1) 0 s1 with ⟨p, s2⟩
      have r2 : R s1 s2 := by simpa [h2] using hpass (byteAt s1.rxbuf 1) 0 s1
      cases p with
      | again => exact absurd (by rw [h2]) (pass_zero (byteAt s1.rxbuf 1) s1)
      | done st => rw [recvBlock_done h1 h2]; exact htrans _ _ _ r1 r2
    · rw [recvBlock_error h1 hst]; exact r1
  | succ k ih =>
    rcases h1 : readBlock s with ⟨st, s1⟩
    have r1 : R s s1 := by simpa [h1] using hread s
    by_cases hst : st = .ok
    · subst hst
      rcases h2 : pass (byteAt s1.rxbuf 1) (k + 1) s1 with ⟨p, s2⟩
      have r2 : R s1 s2 := by simpa [h2] using hpass (byteAt s1.rxbuf 1) (k + 1) s1
      cases p with
      | again => rw [recvBlock_again h1 h2]; exact htrans _ _ _ (htrans _ _ _ r1 r2) (ih s2)
      | done st => rw [recvBlock_done h1 h2]; exact htrans _ _ _ r1 r2
    · rw [recvBlock_error h1 hst]; exact r1

/-- RecvBlock writes the two frame buffers and their lengths, LATCH, NAD_MISMATCH and LAST_RX, the bus port and the draw
counter, and nothing else (R251). -/
theorem recvBlock_state (left : Nat) (s : State) :
    ∃ tb tl b rb rl nm lr l k, (recvBlock left s).2 =
      { s with txbuf := tb, txlen := tl, latch := b, rxbuf := rb, rxlen := rl, nadMismatch := nm, lastRx := lr, link := l,
               echoDraws := k } := by
  refine recvBlock_induct (R := fun s t => ∃ tb tl b rb rl nm lr l k, t =
      { s with txbuf := tb, txlen := tl, latch := b, rxbuf := rb, rxlen := rl, nadMismatch := nm, lastRx := lr, link := l,
               echoDraws := k }) ?_ ?_ ?_ left s
  · rintro a b c ⟨_, _, _, _, _, _, _, _, _, rfl⟩ ⟨tb, tl, b, rb, rl, nm, lr, l, k, rfl⟩
    exact ⟨tb, tl, b, rb, rl, nm, lr, l, k, rfl⟩
  · intro s
    obtain ⟨rb, rl, nm, lr, l, h⟩ := readBlock_state s
    exact ⟨_, _, _, rb, rl, nm, lr, l, _, h⟩
  · intro pcb left s
    obtain ⟨tb, tl, b, l, k, h⟩ := pass_state pcb left s
    exact ⟨tb, tl, b, _, _, _, _, l, k, h⟩

/-- A command's end writes ATRBUF, ATRLEN and the response at most. -/
theorem finish_state (c : Caller) (st : Status) (pcb : Byte) (s : State) :
    ∃ ab al r, finish c st pcb s = { s with atrbuf := ab, atrlen := al, out := s.out ++ [r] } := by
  have plain : ∀ st d, ∃ ab al r, complete st d s = { s with atrbuf := ab, atrlen := al, out := s.out ++ [r] } :=
    fun st d => ⟨_, _, ⟨st, d⟩, rfl⟩
  cases st with
  | ok =>
    cases c with
    | recv => exact plain _ _
    | token => exact plain _ _
    | softReset =>
      simp only [finish]
      split
      · exact plain _ _
      · exact ⟨_, _, _, rfl⟩
    | hardReset =>
      simp only [finish]
      split
      · exact plain _ _
      · exact plain _ _
  | _ => exact plain _ _

end Sys2Proof.Machine
end

