-- ==== Sys2Proof/Laws/PerInstr.lean ====
section
/-!
SUPPORT. The family EncodeSize: an instruction's encoding has 4 + DLEN bytes on the command layer (30_encoding.md R101) and
one byte on the block layer (R110).
-/

namespace Sys2Proof.Laws.EncodeSize

/-- How many DATA bytes an instruction carries. -/
def dlen : Instr → Nat
  | .crcCalc _ data => data.length
  | .frameEncode _ data => data.length
  | .frameDecode _ data => data.length
  | .sendI _ data => data.length
  | .sendR _ data => data.length
  | .sendS _ data => data.length
  | .recv _ data => data.length
  | .softReset _ data => data.length
  | .hardReset _ data => data.length
  | .clearSeq _ data => data.length
  | .endExchange _ data => data.length
  | .rdreg _ data => data.length
  | .wrreg _ data => data.length
  | .readBuf _ data => data.length
  | .illegal _ _ data => data.length
  | .iBlock _ _ _ => 0
  | .rBlockNoError _ _ _ => 0
  | .rBlockCrcError _ _ _ => 0
  | .rBlockOtherError _ _ _ => 0
  | .rBlockUnnamedError _ _ _ => 0
  | .sResyncRequest => 0
  | .sResyncResponse => 0
  | .sSetIfsRequest => 0
  | .sSetIfsResponse => 0
  | .sAbortRequest => 0
  | .sAbortResponse => 0
  | .sWtxRequest => 0
  | .sWtxResponse => 0
  | .sEoaRequest => 0
  | .sEoaResponse => 0
  | .sResetRequest => 0
  | .sResetResponse => 0
  | .sAtrRequest => 0
  | .sAtrResponse => 0
  | .sSoftResetRequest => 0
  | .sSoftResetResponse => 0
  | .sUnnamed _ _ => 0

/-- The size of the encoding. -/
def Statement (i : Instr) : Prop :=
  (encode i).length = match i.layer with
    | .command => 4 + dlen i
    | .block => 1

theorem commandFrame_length (opc arg : Byte) (data : List Byte) : (commandFrame opc arg data).length = 4 + data.length := by
  simp [commandFrame, toBe16]
  omega

theorem crcCalc (arg : Byte) (data : List Byte) : Statement (.crcCalc arg data) := commandFrame_length _ _ _
theorem frameEncode (arg : Byte) (data : List Byte) : Statement (.frameEncode arg data) := commandFrame_length _ _ _
theorem frameDecode (arg : Byte) (data : List Byte) : Statement (.frameDecode arg data) := commandFrame_length _ _ _
theorem sendI (arg : Byte) (data : List Byte) : Statement (.sendI arg data) := commandFrame_length _ _ _
theorem sendR (arg : Byte) (data : List Byte) : Statement (.sendR arg data) := commandFrame_length _ _ _
theorem sendS (arg : Byte) (data : List Byte) : Statement (.sendS arg data) := commandFrame_length _ _ _
theorem recv (arg : Byte) (data : List Byte) : Statement (.recv arg data) := commandFrame_length _ _ _
theorem softReset (arg : Byte) (data : List Byte) : Statement (.softReset arg data) := commandFrame_length _ _ _
theorem hardReset (arg : Byte) (data : List Byte) : Statement (.hardReset arg data) := commandFrame_length _ _ _
theorem clearSeq (arg : Byte) (data : List Byte) : Statement (.clearSeq arg data) := commandFrame_length _ _ _
theorem endExchange (arg : Byte) (data : List Byte) : Statement (.endExchange arg data) := commandFrame_length _ _ _
theorem rdreg (arg : Byte) (data : List Byte) : Statement (.rdreg arg data) := commandFrame_length _ _ _
theorem wrreg (arg : Byte) (data : List Byte) : Statement (.wrreg arg data) := commandFrame_length _ _ _
theorem readBuf (arg : Byte) (data : List Byte) : Statement (.readBuf arg data) := commandFrame_length _ _ _
theorem illegal (opc arg : Byte) (data : List Byte) : Statement (.illegal opc arg data) := commandFrame_length _ _ _
theorem iBlock (ns m : Bool) (ignored : BitVec 5) : Statement (.iBlock ns m ignored) := rfl
theorem rBlockNoError (nr ignored5 : Bool) (ignored32 : BitVec 2) : Statement (.rBlockNoError nr ignored5 ignored32) := rfl
theorem rBlockCrcError (nr ignored5 : Bool) (ignored32 : BitVec 2) : Statement (.rBlockCrcError nr ignored5 ignored32) := rfl
theorem rBlockOtherError (nr ignored5 : Bool) (ignored32 : BitVec 2) : Statement (.rBlockOtherError nr ignored5 ignored32) := rfl
theorem rBlockUnnamedError (nr ignored5 : Bool) (ignored32 : BitVec 2) : Statement (.rBlockUnnamedError nr ignored5 ignored32) := rfl
theorem sResyncRequest : Statement (.sResyncRequest) := rfl
theorem sResyncResponse : Statement (.sResyncResponse) := rfl
theorem sSetIfsRequest : Statement (.sSetIfsRequest) := rfl
theorem sSetIfsResponse : Statement (.sSetIfsResponse) := rfl
theorem sAbortRequest : Statement (.sAbortRequest) := rfl
theorem sAbortResponse : Statement (.sAbortResponse) := rfl
theorem sWtxRequest : Statement (.sWtxRequest) := rfl
theorem sWtxResponse : Statement (.sWtxResponse) := rfl
theorem sEoaRequest : Statement (.sEoaRequest) := rfl
theorem sEoaResponse : Statement (.sEoaResponse) := rfl
theorem sResetRequest : Statement (.sResetRequest) := rfl
theorem sResetResponse : Statement (.sResetResponse) := rfl
theorem sAtrRequest : Statement (.sAtrRequest) := rfl
theorem sAtrResponse : Statement (.sAtrResponse) := rfl
theorem sSoftResetRequest : Statement (.sSoftResetRequest) := rfl
theorem sSoftResetResponse : Statement (.sSoftResetResponse) := rfl
theorem sUnnamed (dir : Bool) (type : BitVec 5) : Statement (.sUnnamed dir type) := rfl

end Sys2Proof.Laws.EncodeSize
end

