-- ==== Sys2Proof/Tests/Slice0.lean ====
section
/-!
SUPPORT. The model's own tests. Words are written out from the encodings of 30_encoding.md; expected results are the vectors of
95_test_vectors.md, named beside each test. The last part shows, for every obligation with hypotheses, a concrete state and
operands that meet them.
-/

namespace Sys2Proof.Tests

open Sys2Proof Sys2Proof.Machine

/-! ## Helpers -/

/-- The state `s` with a frame on the port and the peer's next answers written down. -/
def submit (frame : List Byte) (answers : List BusAnswer) (s : State) : State :=
  { s with port := frame, link := { s.link with answers := answers } }

/-- The state after one step. -/
def after (s : State) : State :=
  match step s with
  | .next t => t
  | .fault _ => s
  | .refused _ => s

/-- The bytes of the responses after one step. -/
def responses (s : State) : List (List Byte) := (after s).out.map Response.bytes

/-- The bytes of the writes in the bus trace after one step. -/
def writes (s : State) : List (List Byte) :=
  (after s).link.trace.filterMap fun e =>
    match e with
    | .attempt .write _ _ d _ => some d
    | .attempt .read _ _ _ _ => none
    | .guardWait _ => none
    | .pollWait _ => none

/-- Reset, with the peer's next answers written down. -/
def peer (answers : List BusAnswer) : State := { State.reset with link := ⟨answers, 0, []⟩ }

/-- Reset, with a receive in progress. -/
def busy (c : Caller) (left : Nat) (answers : List BusAnswer) : State :=
  { peer answers with receiving := some ⟨c, left⟩ }

/-- The state after scenario 2's SEND_I (95_test_vectors.md L1.2): NS = 1 and the I-block in TXBUF. -/
def sent : State :=
  { State.reset with
    ns := true
    txbuf := bufFill 259 [0x5A#8, 0x00#8, 0x04#8, 0x00#8, 0xA4#8, 0x04#8, 0x00#8, 0x2E#8, 0x31#8]
    txlen := 9 }

/-- The peer's answers for the reply `A5 00 02 90 00 02 AF`. -/
def reply : List BusAnswer := [.ack [0xA5#8, 0x00#8, 0x02#8, 0x90#8, 0x00#8], .ack [0x02#8, 0xAF#8]]

/-- The peer's answer for the R-block `A5 81 00 B2 65`. -/
def rError : BusAnswer := .ack [0xA5#8, 0x81#8, 0x00#8, 0xB2#8, 0x65#8]

/-! ## WellFormed refuses an ill-formed term for each check -/

theorem test_wf_refuses_data_above_dlen (arg : Byte) : (Instr.crcCalc arg (List.replicate 65536 0#8)).wf = false := by
  rw [Instr.wf, dataFits, List.length_replicate]
  decide

theorem test_wf_refuses_illegal_with_defined_opcode : (Instr.illegal 0x13#8 0#8 []).wf = false := by decide

theorem test_wf_refuses_unnamed_with_named_type : (Instr.sUnnamed false 15#5).wf = false := by decide

/-! ## Decoding: words written out bit by bit (R101, R104, R110 to R116) -/

theorem test_decode_crc_codec :
    decodeCommand [0b00000001#8, 0x00#8, 0x00#8, 0x01#8, 0x5A#8] = .ok (.crcCalc 0#8 [0x5A#8], []) ∧
    decodeCommand [0b00000010#8, 0xFF#8, 0x00#8, 0x00#8] = .ok (.frameEncode 0xFF#8 [], []) ∧
    decodeCommand [0b00000011#8, 0x00#8, 0x00#8, 0x05#8, 0xA5#8, 0x00#8, 0x00#8, 0xA6#8, 0xF0#8] =
      .ok (.frameDecode 0#8 [0xA5#8, 0x00#8, 0x00#8, 0xA6#8, 0xF0#8], []) := by decide

theorem test_decode_engine :
    decodeCommand [0b00010000#8, 0x20#8, 0x00#8, 0x01#8, 0xA4#8, 0x13#8] = .ok (.sendI 0x20#8 [0xA4#8], [0x13#8]) ∧
    decodeCommand [0b00010001#8, 0x12#8, 0x00#8, 0x00#8] = .ok (.sendR 0x12#8 [], []) ∧
    decodeCommand [0b00010010#8, 0x23#8, 0x00#8, 0x01#8, 0xAA#8] = .ok (.sendS 0x23#8 [0xAA#8], []) ∧
    decodeCommand [0b00010011#8, 0x00#8, 0x00#8, 0x00#8] = .ok (.recv 0#8 [], []) ∧
    decodeCommand [0b00010100#8, 0x00#8, 0x00#8, 0x00#8] = .ok (.softReset 0#8 [], []) ∧
    decodeCommand [0b00010101#8, 0x00#8, 0x00#8, 0x00#8] = .ok (.hardReset 0#8 [], []) := by decide

theorem test_decode_control :
    decodeCommand [0b00100000#8, 0x00#8, 0x00#8, 0x00#8] = .ok (.clearSeq 0#8 [], []) ∧
    decodeCommand [0b00100001#8, 0x00#8, 0x00#8, 0x00#8] = .ok (.endExchange 0#8 [], []) ∧
    decodeCommand [0b00110000#8, 0x04#8, 0x00#8, 0x00#8] = .ok (.rdreg 4#8 [], []) ∧
    decodeCommand [0b00110001#8, 0x05#8, 0x00#8, 0x04#8, 0x00#8, 0x00#8, 0x00#8, 0x48#8] =
      .ok (.wrreg 5#8 [0x00#8, 0x00#8, 0x00#8, 0x48#8], []) ∧
    decodeCommand [0b00110010#8, 0x02#8, 0x00#8, 0x00#8] = .ok (.readBuf 2#8 [], []) ∧
    decodeCommand [0b01000000#8, 0x00#8, 0x00#8, 0x02#8, 0xAA#8, 0xBB#8] = .ok (.illegal 0x40#8 0#8 [0xAA#8, 0xBB#8], []) := by
  decide

theorem test_decode_needs_the_whole_frame :
    decodeCommand [0x13#8, 0x00#8, 0x00#8] = .error .headerIncomplete ∧
    decodeCommand [0x01#8, 0x00#8, 0x01#8, 0x00#8, 0xAA#8] = .error .dataIncomplete := by decide

theorem test_decode_i_and_r_blocks :
    decodeBlock 0b01011111#8 = .iBlock true false 31#5 ∧ decodeBlock 0b00100001#8 = .iBlock false true 1#5 ∧
    decodeBlock 0b10010000#8 = .rBlockNoError true false 0#2 ∧ decodeBlock 0b10111101#8 = .rBlockCrcError true true 3#2 ∧
    decodeBlock 0b10000110#8 = .rBlockOtherError false false 1#2 ∧
    decodeBlock 0b10101011#8 = .rBlockUnnamedError false true 2#2 := by decide

theorem test_decode_s_blocks :
    decodeBlock 0b11000000#8 = .sResyncRequest ∧ decodeBlock 0b11100000#8 = .sResyncResponse ∧
    decodeBlock 0b11000001#8 = .sSetIfsRequest ∧ decodeBlock 0b11100001#8 = .sSetIfsResponse ∧
    decodeBlock 0b11000010#8 = .sAbortRequest ∧ decodeBlock 0b11100010#8 = .sAbortResponse ∧
    decodeBlock 0b11000011#8 = .sWtxRequest ∧ decodeBlock 0b11100011#8 = .sWtxResponse ∧
    decodeBlock 0b11000101#8 = .sEoaRequest ∧ decodeBlock 0b11100101#8 = .sEoaResponse ∧
    decodeBlock 0b11000110#8 = .sResetRequest ∧ decodeBlock 0b11100110#8 = .sResetResponse ∧
    decodeBlock 0b11000111#8 = .sAtrRequest ∧ decodeBlock 0b11100111#8 = .sAtrResponse ∧
    decodeBlock 0b11001111#8 = .sSoftResetRequest ∧ decodeBlock 0b11101111#8 = .sSoftResetResponse ∧
    decodeBlock 0b11000100#8 = .sUnnamed false 4#5 ∧ decodeBlock 0b11111111#8 = .sUnnamed true 31#5 := by decide

theorem test_table_words :
    decodeTableWord 32 0x30040000 = some (.rdreg 4#8 []) ∧ decodeTableWord 32 0x40000000 = some (.illegal 0x40#8 0#8 []) ∧
    decodeTableWord 32 0x31050004 = some (.wrreg 5#8 [0#8, 0#8, 0#8, 0#8]) ∧ decodeTableWord 8 0xE6 = some .sResetResponse := by
  decide +kernel

theorem test_placed_words_run :
    (after (State.reset.withFetchWord 32 0x30040000)).out = [⟨.ok, [0x00#8, 0x00#8, 0x03#8, 0xE8#8]⟩] ∧
    (after (State.reset.withFetchWord 8 0x90)).out = [⟨.ok, [0xA5#8, 0x90#8, 0x00#8]⟩] := by decide +kernel

/-! ## The CRC and the codec (95_test_vectors.md L2.1, L2.2) -/

/-- V-CRC-1, V-CRC-2, V-CRC-4, V-CRC-9, V-CRC-24. -/
theorem test_crc_vectors :
    crc16 [] = 0x0000#16 ∧ crc16 [0x00#8] = 0x78F0#16 ∧ crc16 [0x5A#8, 0x00#8, 0x00#8] = 0x5536#16 ∧
    crc16 [0x5A#8, 0xCF#8, 0x00#8] = 0x377F#16 ∧
    crc16 [0x31#8, 0x32#8, 0x33#8, 0x34#8, 0x35#8, 0x36#8, 0x37#8, 0x38#8, 0x39#8] = 0x6E90#16 := by decide +kernel

/-- V-CRC-29. -/
theorem test_crc_calc :
    responses (submit [0x01#8, 0x00#8, 0x00#8, 0x03#8, 0x5A#8, 0xCF#8, 0x00#8] [] .reset) =
      [[0x00#8, 0x00#8, 0x02#8, 0x37#8, 0x7F#8]] := by decide +kernel

/-- V-CRC-30. -/
theorem test_crc_calc_reserved_arg :
    responses (submit [0x01#8, 0x01#8, 0x00#8, 0x00#8] [] .reset) = [[0x11#8, 0x00#8, 0x00#8]] := by decide +kernel

/-- V-COD-21. -/
theorem test_frame_encode :
    responses (submit [0x02#8, 0x00#8, 0x00#8, 0x04#8, 0x00#8, 0xA4#8, 0x04#8, 0x00#8] [] .reset) =
      [[0x00#8, 0x00#8, 0x09#8, 0x5A#8, 0x00#8, 0x04#8, 0x00#8, 0xA4#8, 0x04#8, 0x00#8, 0x2E#8, 0x31#8]] := by decide +kernel

/-- V-COD-25, V-COD-29 (CRC bytes swapped). -/
theorem test_frame_decode :
    responses (submit [0x03#8, 0x00#8, 0x00#8, 0x07#8, 0xA5#8, 0x00#8, 0x02#8, 0x90#8, 0x00#8, 0x02#8, 0xAF#8] [] .reset) =
      [[0x00#8, 0x00#8, 0x05#8, 0xA5#8, 0x00#8, 0x02#8, 0x90#8, 0x00#8]] ∧
    responses (submit [0x03#8, 0x00#8, 0x00#8, 0x07#8, 0xA5#8, 0x00#8, 0x02#8, 0x90#8, 0x00#8, 0xAF#8, 0x02#8] [] .reset) =
      [[0x04#8, 0x00#8, 0x00#8]] := by decide +kernel

/-- V-COD-30, V-COD-31. -/
theorem test_frame_decode_length :
    responses (submit [0x03#8, 0x00#8, 0x00#8, 0x06#8, 0xA5#8, 0x00#8, 0x02#8, 0x90#8, 0x00#8, 0x02#8] [] .reset) =
      [[0x11#8, 0x00#8, 0x00#8]] ∧
    responses (submit [0x03#8, 0x00#8, 0x00#8, 0x04#8, 0xA5#8, 0x00#8, 0x00#8, 0x00#8] [] .reset) =
      [[0x11#8, 0x00#8, 0x00#8]] := by decide +kernel

/-! ## The arbiter and the engine (95_test_vectors.md L1, L2.3, L2.4) -/

/-- V-ARB-2: with MAX_RETRIES = 3, three NACKs give three attempts and two polling waits. -/
theorem test_send_r_nack_timeout :
    responses (submit [0x11#8, 0x00#8, 0x00#8, 0x00#8] [.nack, .nack, .nack, .ack []] { State.reset with bwtMs := 3#16 }) =
      [[0x02#8, 0x00#8, 0x00#8]] ∧
    (after (submit [0x11#8, 0x00#8, 0x00#8, 0x00#8] [.nack, .nack, .nack, .ack []]
      { State.reset with bwtMs := 3#16 })).link.trace.count (.pollWait 1000#16) = 2 := by decide +kernel

/-- V-ENG-24. -/
theorem test_send_r :
    writes (submit [0x11#8, 0x12#8, 0x00#8, 0x00#8] [.ack []] .reset) = [[0x5A#8, 0x92#8, 0x00#8, 0xB8#8, 0x1C#8]] := by
  decide +kernel

/-- V-ENG-22. -/
theorem test_send_s :
    writes (submit [0x12#8, 0x01#8, 0x00#8, 0x01#8, 0xFE#8] [.ack []] .reset) =
      [[0x5A#8, 0xC1#8, 0x01#8, 0xFE#8, 0x09#8, 0xA2#8]] := by decide +kernel

/-- V-ENG-1. -/
theorem test_send_i_chained :
    writes (submit [0x10#8, 0x20#8, 0x00#8, 0x02#8, 0x00#8, 0xA4#8]
      [.ack [], .ack [0xA5#8, 0x90#8, 0x00#8, 0xFB#8, 0xE9#8]] .reset) =
        [[0x5A#8, 0x20#8, 0x02#8, 0x00#8, 0xA4#8, 0x78#8, 0x2F#8]] ∧
    responses (submit [0x10#8, 0x20#8, 0x00#8, 0x02#8, 0x00#8, 0xA4#8]
      [.ack [], .ack [0xA5#8, 0x90#8, 0x00#8, 0xFB#8, 0xE9#8]] .reset) = [[0x00#8, 0x00#8, 0x00#8]] := by decide +kernel

/-- V-ENG-2: N(R) = 0 after the toggle to NS = 1. -/
theorem test_send_i_wrong_token :
    responses (submit [0x10#8, 0x20#8, 0x00#8, 0x02#8, 0x00#8, 0xA4#8]
      [.ack [], .ack [0xA5#8, 0x80#8, 0x00#8, 0x6A#8, 0x7C#8]] .reset) = [[0x06#8, 0x00#8, 0x00#8]] ∧
    (after (submit [0x10#8, 0x20#8, 0x00#8, 0x02#8, 0x00#8, 0xA4#8]
      [.ack [], .ack [0xA5#8, 0x80#8, 0x00#8, 0x6A#8, 0x7C#8]] .reset)).ns = true := by decide +kernel

/-- L1.5: a WTX request is answered with its echo byte, then the reply is returned; TXBUF keeps the I-block (BYPASS). -/
theorem test_recv_wtx :
    writes (submit [0x13#8, 0x00#8, 0x00#8, 0x00#8]
      (.ack [0xA5#8, 0xC3#8, 0x01#8, 0xAA#8, 0xC2#8] :: .ack [0xC6#8] :: .ack [] :: reply) sent) =
        [[0x5A#8, 0xE3#8, 0x01#8, 0xAA#8, 0x2B#8, 0x00#8]] ∧
    (after (submit [0x13#8, 0x00#8, 0x00#8, 0x00#8]
      (.ack [0xA5#8, 0xC3#8, 0x01#8, 0xAA#8, 0xC2#8] :: .ack [0xC6#8] :: .ack [] :: reply) sent)).txlen = 9 := by decide +kernel

/-- V-ENG-10: the resend repeats the cached frame and sets the latch. -/
theorem test_recv_resend :
    writes (submit [0x13#8, 0x00#8, 0x00#8, 0x00#8] (rError :: .ack [] :: reply) sent) =
      [[0x5A#8, 0x00#8, 0x04#8, 0x00#8, 0xA4#8, 0x04#8, 0x00#8, 0x2E#8, 0x31#8]] ∧
    (after (submit [0x13#8, 0x00#8, 0x00#8, 0x00#8] (rError :: .ack [] :: reply) sent)).latch = true := by decide +kernel

/-- L1.1: SOFT_RESET caches the ATR. -/
theorem test_soft_reset :
    atrBytes (after (submit [0x14#8, 0x00#8, 0x00#8, 0x00#8]
      [.ack [], .ack [0xA5#8, 0xEF#8, 0x05#8, 0x11#8, 0x22#8], .ack [0x33#8, 0x44#8, 0x55#8, 0x2E#8, 0x02#8]] .reset)) =
        [0x11#8, 0x22#8, 0x33#8, 0x44#8, 0x55#8] := by decide +kernel

/-- V-ENG-18's peer: the response type is wrong. -/
theorem test_soft_reset_wrong_type :
    responses (submit [0x14#8, 0x00#8, 0x00#8, 0x00#8]
      [.ack [], .ack [0xA5#8, 0xE0#8, 0x01#8, 0x99#8, 0x85#8], .ack [0x29#8]] .reset) = [[0x05#8, 0x00#8, 0x00#8]] := by
  decide +kernel

/-- V-ENG-19. -/
theorem test_hard_reset :
    writes (submit [0x15#8, 0x00#8, 0x00#8, 0x00#8] [.ack [], .ack [0xA5#8, 0xE6#8, 0x00#8, 0xEF#8, 0x4D#8]] .reset) =
      [[0x5A#8, 0xC6#8, 0x00#8, 0x2F#8, 0xA8#8]] ∧
    responses (submit [0x15#8, 0x00#8, 0x00#8, 0x00#8] [.ack [], .ack [0xA5#8, 0xE6#8, 0x00#8, 0xEF#8, 0x4D#8]] .reset) =
      [[0x00#8, 0x00#8, 0x00#8]] := by decide +kernel

/-! ## State control (95_test_vectors.md L2.5) -/

/-- V-CTL-22. -/
theorem test_clear_seq : (after (submit [0x20#8, 0x00#8, 0x00#8, 0x00#8] [] sent)).ns = false := by decide +kernel

/-- V-CTL-23, the part of END_EXCHANGE: NS stays. -/
theorem test_end_exchange :
    (after (submit [0x21#8, 0x00#8, 0x00#8, 0x00#8] [] { sent with latch := true })).txlen = 0 ∧
    seqImage (after (submit [0x21#8, 0x00#8, 0x00#8, 0x00#8] [] { sent with latch := true })) = 1#32 := by decide +kernel

/-- V-CTL-16: 65,535,000 / 3. -/
theorem test_rdreg_max_retries :
    responses (submit [0x30#8, 0x04#8, 0x00#8, 0x00#8] [] { State.reset with bwtMs := 0xFFFF#16, mpotUs := 3#16 }) =
      [[0x00#8, 0x00#8, 0x04#8, 0x01#8, 0x4D#8, 0x54#8, 0x08#8]] := by decide +kernel

/-- V-CTL-1. -/
theorem test_rdreg_no_register :
    responses (submit [0x30#8, 0x0C#8, 0x00#8, 0x00#8] [] .reset) = [[0x12#8, 0x00#8, 0x00#8]] := by decide +kernel

/-- V-CTL-12, V-CTL-11. -/
theorem test_wrreg_i2c_addr :
    (after (submit [0x31#8, 0x05#8, 0x00#8, 0x04#8, 0x00#8, 0x00#8, 0x00#8, 0x7F#8] [] .reset)).i2cAddr = 0x7F#7 ∧
    responses (submit [0x31#8, 0x05#8, 0x00#8, 0x04#8, 0x00#8, 0x00#8, 0x00#8, 0x80#8] [] .reset) =
      [[0x11#8, 0x00#8, 0x00#8]] := by decide +kernel

/-- V-CTL-17: write 1 to clear, write 0 keeps. -/
theorem test_wrreg_flags :
    (after (submit [0x31#8, 0x09#8, 0x00#8, 0x04#8, 0x00#8, 0x00#8, 0x00#8, 0x00#8] []
      { State.reset with nadMismatch := true })).nadMismatch = true ∧
    (after (submit [0x31#8, 0x09#8, 0x00#8, 0x04#8, 0x00#8, 0x00#8, 0x00#8, 0x01#8] []
      { State.reset with nadMismatch := true })).nadMismatch = false := by decide +kernel

/-- READ_BUF tx after scenario 2's SEND_I (L1.2), V-CTL-18. -/
theorem test_read_buf :
    responses (submit [0x32#8, 0x00#8, 0x00#8, 0x00#8] [] sent) =
      [[0x00#8, 0x00#8, 0x09#8, 0x5A#8, 0x00#8, 0x04#8, 0x00#8, 0xA4#8, 0x04#8, 0x00#8, 0x2E#8, 0x31#8]] ∧
    responses (submit [0x32#8, 0x03#8, 0x00#8, 0x00#8] [] sent) = [[0x11#8, 0x00#8, 0x00#8]] := by decide +kernel

/-- V-CTL-20: the DATA of an illegal command is consumed. -/
theorem test_illegal :
    responses (submit [0x40#8, 0x00#8, 0x00#8, 0x02#8, 0xAA#8, 0xBB#8, 0x20#8] [] .reset) = [[0x10#8, 0x00#8, 0x00#8]] ∧
    (after (submit [0x40#8, 0x00#8, 0x00#8, 0x02#8, 0xAA#8, 0xBB#8, 0x20#8] [] .reset)).port = [0x20#8] := by decide +kernel

/-! ## The block rows in a receive (R251, R256, R258) -/

/-- Every PCB but 0xC3 and the R-blocks with EE ≠ 0 ends a RECV with OK (R251). -/
theorem test_returned_rows : ∀ pcb : Byte, plainPcb pcb = true →
    (after (busy .recv 1 [.ack (buildFrame 0xA5#8 pcb [])])).out = [⟨.ok, [0xA5#8, pcb, 0x00#8]⟩] := by decide +kernel

/-- A WTX request goes on with one re-entry fewer (R251). -/
theorem test_wtx_row :
    (after (busy .recv 2 (.ack [0xA5#8, 0xC3#8, 0x01#8, 0xAA#8, 0xC2#8] :: .ack [0xC6#8] :: .ack [] :: reply))).receiving =
      some ⟨.recv, 1⟩ := by decide +kernel

/-- An R-block with EE = 1 and the latch set ends the command with ERR_RETX_EXHAUSTED (V-ENG-11's last block). -/
theorem test_r_error_row :
    (after { busy .recv 2 [rError] with latch := true }).out = [⟨.errRetxExhausted, []⟩] := by decide +kernel

/-- Reset in the middle of a receive abandons the command without a response (R361). -/
theorem test_reset_in_a_receive :
    (after { busy .recv 2 reply with resetPin := true }).receiving = none ∧
    (after { busy .recv 2 reply with resetPin := true }).out = [] := by decide +kernel

/-! ## Witnesses: for every obligation with hypotheses, a state and operands that meet all of them -/

/-- The state after placing `A5 00 02 90 00 02 AF` at the peer, in a RECV's receive. -/
def receivingReply : State := busy .recv 1000 reply

theorem witness_DecodeEncodeCommand (arg : Byte) :
    ((Instr.crcCalc arg (List.replicate 65535 0#8)).wf = true ∧ (Instr.crcCalc arg (List.replicate 65535 0#8)).layer = .command) ∧
    (Instr.illegal 0x00#8 0xFF#8 []).wf = true ∧ (Instr.illegal 0x00#8 0xFF#8 []).layer = .command := by
  refine ⟨⟨?_, rfl⟩, by decide, rfl⟩
  rw [Instr.wf, dataFits, List.length_replicate]
  decide

theorem witness_DecodeEncodeBlock :
    (Instr.sUnnamed true 31#5).wf = true ∧ (Instr.sUnnamed true 31#5).layer = .block := by decide

theorem witness_DecodedBytesAreTheEncoding :
    decodeCommand [0x40#8, 0x00#8, 0x00#8, 0x01#8, 0xAA#8, 0x20#8] = .ok (.illegal 0x40#8 0#8 [0xAA#8], [0x20#8]) := by decide

theorem witness_StepRunsTheDecodedCommand :
    let s : State := { State.reset with port := [0x20#8, 0x00#8, 0x00#8, 0x00#8, 0x21#8] }
    s.resetPin = false ∧ s.receiving = none ∧ decodeCommand s.port = .ok (.clearSeq 0#8 [], [0x21#8]) ∧
      (Instr.clearSeq 0#8 []).wf = true := by decide

theorem witness_StepRunsTheReceivedBlock :
    receivingReply.resetPin = false ∧ receivingReply.receiving = some ⟨.recv, 1000⟩ ∧
      readBlock receivingReply = (.ok, (readBlock receivingReply).2) := by decide +kernel

/-- Three bytes of a header, and a header whose one DATA byte is missing. -/
theorem witness_StepWaitsForAWholeFrame :
    ([0x01#8, 0x00#8, 0x00#8] : List Byte).length < 4 ∧
    ([0x01#8, 0x00#8, 0x00#8, 0x01#8] : List Byte).length < 4 + (0x00#8).toNat * 256 + (0x01#8).toNat ∧
    State.reset.resetPin = false ∧ State.reset.receiving = none := by decide

theorem witness_ResetValuesOfEveryField : ({ receivingReply with resetPin := true } : State).resetPin = true := rfl

theorem witness_StepKeepsTheStateInOrder :
    sent.inOrder = true ∧ receivingReply.inOrder = true ∧ step sent = .next sent := by
  refine ⟨by decide +kernel, by decide +kernel, rfl⟩

theorem witness_InstructionsLeaveInputsAndParametersAlone :
    exec (.clearSeq 0#8 []) sent = .next { sent with ns := false, nr := false, out := [⟨.ok, []⟩] } := rfl

/-- One instruction or step for each writer the statement names. -/
theorem witness_WritersOfEachRegister :
    (∃ t, (Instr.clearSeq 0#8 []).wf = true ∧ exec (.clearSeq 0#8 []) sent = .next t ∧ t.ns ≠ sent.ns) ∧
    (∃ t, (Instr.sendI 0#8 []).wf = true ∧ exec (.sendI 0#8 []) (peer [.ack []]) = .next t ∧ t.ns ≠ (peer [.ack []]).ns ∧
      t.txlen ≠ 0) ∧
    (∃ t, (Instr.wrreg 5#8 [0#8, 0#8, 0#8, 0x48#8]).wf = true ∧
      exec (.wrreg 5#8 [0#8, 0#8, 0#8, 0x48#8]) .reset = .next t ∧ t.i2cAddr ≠ State.reset.i2cAddr) ∧
    (∃ t, (Instr.recv 0#8 []).wf = true ∧ exec (.recv 0#8 []) (peer (rError :: .ack [] :: reply)) = .next t ∧
      t.latch = true ∧ t.rxlen = 7 ∧ t.lastRx = ⟨0xA5#8, 0x00#8, 0x02#8⟩) ∧
    (∃ t, (Instr.recv 0#8 []).wf = true ∧ exec (.recv 0#8 []) (peer [.ack (buildFrame 0x11#8 0x00#8 [])]) = .next t ∧
      t.nadMismatch = true) :=
  ⟨⟨_, by decide, rfl, by decide⟩, ⟨_, by decide, rfl, by decide +kernel⟩, ⟨_, by decide, rfl, by decide +kernel⟩,
    ⟨_, by decide, rfl, by decide +kernel⟩, ⟨_, by decide, rfl, by decide +kernel⟩⟩

/-- WRREG FLAGS as an instruction and as the frame a step takes, and the rows that write in a receive. -/
theorem witness_WritersOfEachRegister_cleared :
    (let s : State := { State.reset with nadMismatch := true, port := [0x31#8, 0x09#8, 0x00#8, 0x04#8, 0#8, 0#8, 0#8, 1#8] }
      ∃ t, step s = .next t ∧ s.nadMismatch = true ∧ t.nadMismatch = false) ∧
    (∃ t, (Instr.wrreg 9#8 [0#8, 0#8, 0#8, 1#8]).wf = true ∧
      exec (.wrreg 9#8 [0#8, 0#8, 0#8, 1#8]) { State.reset with nadMismatch := true } = .next t ∧ t.nadMismatch = false) ∧
    (∃ t, exec (.rBlockCrcError false false 0#2) { sent with receiving := some ⟨.recv, 1⟩, link := ⟨[.ack []], 0, []⟩ } = .next t ∧
      t.latch = true) ∧
    (∃ t, exec .sWtxRequest { busy .recv 1 [.ack []] with params := ⟨.perSend, .overwrite⟩, latch := true } = .next t ∧
      t.latch = false ∧ t.txlen = 6) :=
  ⟨⟨_, rfl, rfl, by decide +kernel⟩, ⟨_, by decide, rfl, by decide +kernel⟩, ⟨_, rfl, by decide +kernel⟩,
    ⟨_, rfl, by decide +kernel⟩⟩

/-- A frame that fails each of the six checks, and one that passes them. -/
theorem witness_RefusedFramesChangeNothing :
    refusalOf 0x33#8 0#8 [] = some .errIllegalCmd ∧ refusalOf 0x01#8 1#8 [] = some .errParam ∧
    refusalOf 0x30#8 12#8 [] = some .errReg ∧ refusalOf 0x20#8 0#8 [0#8] = some .errParam ∧
    refusalOf 0x31#8 2#8 [0#8, 0#8, 0#8, 0#8] = some .errParam ∧
    refusalOf 0x03#8 0#8 [0xA5#8, 0#8, 0xFF#8, 0#8, 0#8] = some .errParam ∧ refusalOf 0x13#8 0#8 [] = none ∧
    (encode (.wrreg 2#8 [0#8, 0#8, 0#8, 0#8])).drop 4 = [0#8, 0#8, 0#8, 0#8] ∧
    (Instr.wrreg 2#8 [0#8, 0#8, 0#8, 0#8]).wf = true := by decide

theorem witness_OneResponsePerCommand :
    ∃ t, (Instr.recv 1#8 []).layer = .command ∧ exec (.recv 1#8 []) sent = .next t := ⟨_, rfl, rfl⟩

theorem witness_ResponsesFitTheirFrame :
    ∃ t, sent.inOrder = true ∧ (Instr.readBuf 0#8 []).layer = .command ∧ exec (.readBuf 0#8 []) sent = .next t :=
  ⟨_, by decide +kernel, rfl, rfl⟩

theorem witness_AttemptsPerCommandAreBounded : (Instr.recv 0#8 []).layer = .command := rfl

theorem witness_EveryAttemptIsSpacedAsTheArbiterSays :
    ∃ t, exec (.sendR 0#8 []) (peer [.nack, .ack []]) = .next t := by
  simp only [exec, execSendR]
  exact ⟨_, rfl⟩

/-- An arbiter that does not wait between two attempts has no such trace. -/
theorem test_trace_without_the_polling_wait (n : Nat) :
    ¬ TransfersTrace 10#16 1000#16 0#7 (n + 2)
      [.guardWait 10#16, .attempt .write 0#7 0 [] .nack, .guardWait 10#16, .attempt .write 0#7 0 [] (.ack [])] := by
  intro h
  generalize hm : n + 2 = m at h
  generalize he : ([.guardWait 10#16, .attempt .write 0#7 0 [] .nack, .guardWait 10#16, .attempt .write 0#7 0 [] (.ack [])] :
    List BusEvent) = ev at h
  cases h with
  | none => cases he
  | failed dir k data _ h => cases h <;> simp_all
  | more dir k data first rest h _ => cases h <;> simp_all

/-- The longest INF, and the longest DATA. -/
theorem witness_codec_lengths :
    (List.replicate 254 0xAA#8).length ≤ 254 ∧ (List.replicate 65535 0xAA#8).length ≤ 65535 := by
  simp only [List.length_replicate]
  decide

/-- The first byte, the byte before LEN, the byte after it and the last byte. -/
theorem witness_OneCorruptedByteIsRejected :
    ∀ i ∈ [0, 1, 3, 5], i < 5 + [0xAA#8].length ∧ i ≠ 2 ∧ byteAt (buildFrame 0x5A#8 0x00#8 [0xAA#8]) i + 1#8 ≠
      byteAt (buildFrame 0x5A#8 0x00#8 [0xAA#8]) i := by decide +kernel

/-- PCBs at the edges of the three ranges. -/
theorem witness_ClassifyByTopBits :
    (0x7F#8).toNat < 128 ∧ (128 ≤ (0x80#8).toNat ∧ (0x80#8).toNat < 192) ∧ (128 ≤ (0xBF#8).toNat ∧ (0xBF#8).toNat < 192) ∧
    192 ≤ (0xC0#8).toNat := by decide

/-- No NACK and MAX_RETRIES − 1 NACKs before the ACK, with MAX_RETRIES = 3, a read and a write. -/
theorem witness_TransferSucceedsAfterNacks :
    let s : State := { peer [.nack, .nack, .ack [0xA5#8]] with bwtMs := 3#16 }
    (2 < maxRetries s ∧ [0xA5#8].length = 1 ∧ s.link.answers = List.replicate 2 .nack ++ .ack [0xA5#8] :: []) ∧
    (0 < maxRetries (peer [.ack []]) ∧ (peer [.ack []]).link.answers = List.replicate 0 .nack ++ .ack [] :: []) := by
  decide +kernel

theorem witness_TransferTimesOutAfterMaxRetries :
    let s : State := { peer [.nack, .nack, .nack, .ack []] with bwtMs := 3#16 }
    maxRetries s = 2 + 1 ∧ s.link.answers = List.replicate (2 + 1) .nack ++ [.ack []] := by decide +kernel

theorem witness_TransferStopsAtShortOrFault :
    let s : State := { peer [.nack, .nack, .short 4] with bwtMs := 3#16 }
    2 < maxRetries s ∧ 4 < 5 ∧ s.link.answers = List.replicate 2 .nack ++ .short 4 :: [] ∧
    (0 < maxRetries (peer [.fault]) ∧ (peer [.fault]).link.answers = List.replicate 0 .nack ++ .fault :: []) := by decide +kernel

theorem witness_sends :
    (peer [.ack []]).link.answers = .ack [] :: [] ∧ ([0x00#8, 0xA4#8, 0x04#8, 0x00#8] : List Byte).length ≤ 254 ∧
    0x12#8 ∈ [0x00#8, 0x01#8, 0x02#8, 0x10#8, 0x11#8, 0x12#8] ∧ (0x3F#8).toNat < 64 := by decide

/-- The peer's answers written down, with MAX_RETRIES = 3. -/
def three (answers : List BusAnswer) : State := { peer answers with bwtMs := 3#16 }

theorem three_maxRetries (answers : List BusAnswer) : maxRetries (three answers) = 3 := by
  simp [maxRetries, three, peer, State.reset]

/-- With MAX_RETRIES = 3, the ways a transfer of n bytes fails, at their bounds: a FAULT at once, a SHORT by one byte at the last
attempt allowed, MAX_RETRIES NACKs. -/
def failures (n : Nat) : List (Status × List BusAnswer) :=
  [(.errTransport, [.fault]), (.errTransport, [.nack, .nack, .short (n - 1)]), (.errNackTimeout, [.nack, .nack, .nack])]

theorem failures_fail (n : Nat) (hn : 1 ≤ n) : ∀ p ∈ failures n, TransferFails n 3 p.1 p.2 := by
  simp only [failures, List.forall_mem_cons]
  exact ⟨.inl ⟨rfl, 0, .fault, by decide, .inl rfl, rfl⟩,
    .inl ⟨rfl, 2, .short (n - 1), by decide, .inr ⟨n - 1, by omega, rfl⟩, rfl⟩, .inr ⟨rfl, rfl⟩, by simp⟩

/-- The shortest and the longest INF. -/
theorem witness_FailedSendIKeepsItsWrites : ∀ n ∈ [0, 254], (List.replicate n 0xAA#8).length ≤ 254 ∧
    ∀ p ∈ failures (5 + (List.replicate n 0xAA#8).length),
      TransferFails (5 + (List.replicate n 0xAA#8).length) (maxRetries (three (p.2 ++ []))) p.1 p.2 ∧
        (three (p.2 ++ [])).link.answers = p.2 ++ [] := by
  intro n hn
  refine ⟨by rw [List.length_replicate]; revert hn; revert n; decide, fun p hp => ⟨?_, rfl⟩⟩
  rw [three_maxRetries]
  exact failures_fail _ (by omega) p hp

/-- The token of V-ENG-1, that of V-ENG-2 and the I-block of V-ENG-3 after the write. -/
theorem witness_SendIChainedChecksTheToken : ∀ p ∈ [(0x90#8, ([] : List Byte)), (0x80#8, []), (0x00#8, [0x90#8, 0x00#8])],
    plainPcb p.1 = true ∧ p.2.length ≤ 254 ∧
    (peer (.ack [] :: (blockAnswers (buildFrame 0xA5#8 p.1 p.2) ++ []))).link.answers =
      .ack [] :: (blockAnswers (buildFrame 0xA5#8 p.1 p.2) ++ []) := by decide +kernel

theorem witness_RecvReturnsAPlainBlock :
    plainPcb 0x00#8 = true ∧ ([0x90#8, 0x00#8] : List Byte).length ≤ 254 ∧
    (peer reply).link.answers = blockAnswers (buildFrame 0xA5#8 0x00#8 [0x90#8, 0x00#8]) ++ [] := by decide +kernel

/-- V-ENG-13 and V-ENG-14. -/
theorem witness_RecvRejectsBadFrames :
    (peer [.ack [0xA5#8, 0x00#8, 0xFF#8, 0x12#8, 0x34#8]]).link.answers = .ack [0xA5#8, 0x00#8, 0xFF#8, 0x12#8, 0x34#8] :: [] ∧
    (0x02#8).toNat * 256 + (0xAE#8).toNat ≠ (crc16 ([0xA5#8, 0x00#8, 0x02#8] ++ [0x90#8, 0x00#8])).toNat ∧
    (peer [.ack [0xA5#8, 0x00#8, 0x02#8, 0x90#8, 0x00#8], .ack [0x02#8, 0xAE#8]]).link.answers =
      blockAnswers ([0xA5#8, 0x00#8, 0x02#8] ++ [0x90#8, 0x00#8] ++ [0x02#8, 0xAE#8]) ++ [] := by decide +kernel

theorem witness_FailedReadsStoreNothing_first : ∀ p ∈ failures 5,
    TransferFails 5 (maxRetries (three (p.2 ++ []))) p.1 p.2 ∧ (three (p.2 ++ [])).link.answers = p.2 ++ [] := by
  intro p hp
  rw [three_maxRetries]
  exact ⟨failures_fail 5 (by decide) p hp, rfl⟩

/-- LEN at both ends of its range, the first read ACKed at the last attempt allowed. -/
theorem witness_FailedReadsStoreNothing_second : ∀ len ∈ [0x01#8, 0xFE#8], ∀ p ∈ failures len.toNat,
    let first := List.replicate 2 .nack ++ [.ack [0xA5#8, 0x00#8, len, 0x90#8, 0x00#8]]
    let s := three (first ++ (p.2 ++ []))
    1 ≤ len.toNat ∧ len.toNat ≤ 254 ∧ 2 < maxRetries s ∧ TransferFails len.toNat (maxRetries s) p.1 p.2 ∧
      s.link.answers = first ++ (p.2 ++ []) := by
  intro len hlen p hp
  have h1 := (by decide : ∀ l ∈ [0x01#8, 0xFE#8], 1 ≤ l.toNat ∧ l.toNat ≤ 254) len hlen
  simp only [three_maxRetries]
  exact ⟨h1.1, h1.2, by decide, failures_fail _ h1.1 p hp, rfl⟩

/-- The wanted response and another plain block, for SOFT_RESET and for HARD_RESET. -/
theorem witness_resets : ∀ pcb ∈ [0xEF#8, 0xE6#8, 0xE0#8], plainPcb pcb = true ∧ ([0x11#8] : List Byte).length ≤ 254 ∧
    (peer (.ack [] :: (blockAnswers (buildFrame 0xA5#8 pcb [0x11#8]) ++ []))).link.answers =
      .ack [] :: (blockAnswers (buildFrame 0xA5#8 pcb [0x11#8]) ++ []) := by decide +kernel

theorem witness_SendSequenceCountsLegalSendI :
    State.reset.ns = false ∧ ∀ i ∈ [Instr.sendI 0#8 [], Instr.sendI 0x20#8 [], Instr.sendI 0x40#8 []], i.layer = .command ∧
      ∀ a d, i ≠ .clearSeq a d := by
  simp [State.reset, Instr.layer]

/-- A send under each value of P_LATCH_CLEAR, END_EXCHANGE under PER_SEND, and a WTX response under OVERWRITE. -/
theorem witness_LatchIsClearedAsItsParameterSays :
    (let s : State := { peer [.ack []] with params := ⟨.perExchange, .bypass⟩, latch := true };
      s.params.latchClear = .perExchange ∧ s.latch = true ∧ (∀ a d, Instr.sendR 0#8 [] ≠ .endExchange a d) ∧
        ∃ t, exec (.sendR 0#8 []) s = .next t) ∧
    (let s : State := { peer [.ack []] with latch := true };
      s.params.latchClear = .perSend ∧ s.latch = true ∧ ∃ t, exec (.sendR 0#8 []) s = .next t ∧ t.latch = false) ∧
    (let s : State := { sent with latch := true };
      s.params.latchClear = .perSend ∧ s.latch = true ∧ ∃ t, exec (.endExchange 0#8 []) s = .next t ∧ t.latch = false) ∧
    (let s : State := { busy .recv 1 [.ack []] with params := ⟨.perSend, .overwrite⟩, latch := true };
      s.params.latchClear = .perSend ∧ s.latch = true ∧ ∃ t, exec .sWtxRequest s = .next t ∧ t.latch = false) := by
  refine ⟨⟨rfl, rfl, by simp, _, rfl⟩, ⟨rfl, rfl, _, rfl, ?_⟩, ⟨rfl, rfl, _, rfl, rfl⟩, ⟨rfl, rfl, _, rfl, ?_⟩⟩
  · decide +kernel
  · decide +kernel

/-- V-ENG-11's second block. -/
theorem witness_SecondResendFails :
    ({ peer [rError] with latch := true } : State).latch = true ∧ 0x81#8 &&& 0xC0#8 = 0x80#8 ∧ 0x81#8 &&& 0x03#8 ≠ 0#8 ∧
    (peer [rError]).link.answers = blockAnswers (buildFrame 0xA5#8 0x81#8 []) ++ [] := by decide +kernel

/-- V-ENG-10. -/
theorem witness_FirstResendRepeatsTheCachedFrame :
    sent.latch = false ∧ sent.txlen ≤ sent.txbuf.length ∧ 0x81#8 &&& 0xC0#8 = 0x80#8 ∧ 0x81#8 &&& 0x03#8 ≠ 0#8 ∧
    plainPcb 0x00#8 = true ∧
    (rError :: .ack [] :: reply) = blockAnswers (buildFrame 0xA5#8 0x81#8 []) ++
      .ack [] :: (blockAnswers (buildFrame 0xA5#8 0x00#8 [0x90#8, 0x00#8]) ++ []) := by decide +kernel

/-- MAX_RETRIES = 1 and one request, the most the statement allows. -/
theorem witness_WtxRequestsAreTransparent :
    let s : State := { peer ([(0xA5#8, [0xAA#8])].flatMap wtxAnswers ++ (blockAnswers (buildFrame 0xA5#8 0x00#8 []) ++ [])) with
      bwtMs := 1#16 }
    s.params.wtxCache = .bypass ∧ [(0xA5#8, [0xAA#8])].length = maxRetries s ∧ plainPcb 0x00#8 = true ∧
      s.link.answers = [(0xA5#8, [0xAA#8])].flatMap wtxAnswers ++ (blockAnswers (buildFrame 0xA5#8 0x00#8 []) ++ []) := by
  decide +kernel

/-- V-ENG-17. -/
theorem witness_OneWtxRequestTooManyEndsRecv :
    let s : State := { peer ([(0xA5#8, [0xAA#8])].flatMap wtxAnswers ++ (blockAnswers (buildFrame 0xA5#8 0xC3#8 [0xAA#8]) ++ [])) with
      bwtMs := 1#16 }
    [(0xA5#8, [0xAA#8])].length = maxRetries s ∧
      s.link.answers = [(0xA5#8, [0xAA#8])].flatMap wtxAnswers ++ (blockAnswers (buildFrame 0xA5#8 0xC3#8 [0xAA#8]) ++ []) := by
  decide +kernel

theorem witness_ReceiveByStepsIsReceiveAtOnce : (peer reply).resetPin = false ∧ (peer reply).receiving = none := ⟨rfl, rfl⟩

/-- A returned row, and a receive of each caller. -/
theorem witness_returned_blocks : ∀ i ∈ [Instr.sSoftResetResponse, .sResetResponse, .rBlockNoError true false 0#2, .iBlock false false 0#5],
    i.wf = true ∧ i.isReturned = true := by decide

theorem witness_receives (c : Caller) (left : Nat) : (busy c left [.ack []]).receiving = some ⟨c, left⟩ := rfl

theorem witness_ErrorBlockResendsTheCachedFrame :
    let s : State := { sent with receiving := some ⟨.token, 0 + 1⟩, link := ⟨[.ack []], 0, []⟩ }
    s.receiving = some ⟨.token, 0 + 1⟩ ∧ s.latch = false ∧ s.txlen ≤ s.txbuf.length ∧ s.link.answers = .ack [] :: [] := by
  decide +kernel

/-- Both limits: no re-entry left, and one left with the latch set. -/
theorem witness_BlocksStopAtTheLimits :
    (busy .recv 0 []).receiving = some ⟨.recv, 0⟩ ∧
    ({ busy .recv (0 + 1) [] with latch := true } : State).receiving = some ⟨.recv, 0 + 1⟩ ∧
    ({ busy .recv (0 + 1) [] with latch := true } : State).latch = true := ⟨rfl, rfl, rfl⟩

/-- LEN = 0 and LEN = 1, under both values of P_WTX_CACHE. -/
theorem witness_WtxRequestIsAnswered :
    (busy .recv (0 + 1) [.ack []]).receiving = some ⟨.recv, 0 + 1⟩ ∧ (busy .recv 1 [.ack []]).link.answers = .ack [] :: [] ∧
    (byteAt (busy .recv 1 [.ack []]).rxbuf 2).toNat = 0 ∧
    1 ≤ (byteAt ({ busy .recv 1 [.ack []] with rxbuf := [0xA5#8, 0xC3#8, 0x01#8, 0xAA#8] } : State).rxbuf 2).toNat ∧
    (busy .recv 1 [.ack []]).params.wtxCache = .bypass ∧
    ({ busy .recv 1 [.ack []] with params := ⟨.perSend, .overwrite⟩ } : State).params.wtxCache = .overwrite := by decide +kernel

theorem witness_BlockOutsideAReceiveChangesNothing :
    Instr.sWtxRequest.layer = .block ∧ State.reset.receiving = none := ⟨rfl, rfl⟩

theorem witness_RdregReadsEveryRegister :
    (∀ reg : Byte, reg.toNat ≤ 11 → (regValue reg State.reset).isSome = true) ∧ regValue 4#8 State.reset = some 1000 := by
  decide +kernel

/-- The largest legal value of each register, and the smallest of MPOT_US and BWT_MS. -/
theorem witness_WrregWritesEveryWritableRegister :
    natOfBytes [0#8, 0#8, 0xFF#8, 0xFF#8] = 65535 ∧ natOfBytes [0#8, 0#8, 0#8, 1#8] = 1 ∧ natOfBytes [0#8, 0#8, 0#8, 0x7F#8] = 127 := by
  decide

theorem witness_SetTimingSetsMaxRetries :
    (0xFFFF#32).toNat ≤ 65535 ∧ 1 ≤ (1#32).toNat ∧ (1#32).toNat ≤ 65535 ∧ 1 ≤ (0xFFFF#32).toNat := by decide

theorem witness_IllegalFramesAreConsumedWhole :
    let s : State := { State.reset with port := 0x40#8 :: 0x00#8 :: 0x00#8 :: 0x02#8 :: ([0xAA#8, 0xBB#8] ++ [0x20#8]) }
    s.resetPin = false ∧ s.receiving = none ∧
    0x40#8 ∉ [0x01#8, 0x02#8, 0x03#8, 0x10#8, 0x11#8, 0x12#8, 0x13#8, 0x14#8, 0x15#8, 0x20#8, 0x21#8, 0x30#8, 0x31#8, 0x32#8] ∧
    [0xAA#8, 0xBB#8].length = (0x00#8).toNat * 256 + (0x02#8).toNat := by decide

/-- The clauses of refused operands, each at the edge of its range. -/
theorem witness_refused_operands :
    (0x01#8 ≠ 0x00#8) ∧ ([0xAA#8] ≠ ([] : List Byte)) ∧ (2 < (0x03#8).toNat) ∧ (0x0B < (0x0C#8).toNat) ∧
    ((0x0B#8).toNat ≤ 0x0B) ∧ ([0xA5#8, 0x00#8, 0x00#8, 0xA6#8] : List Byte).length < 5 ∧
    254 < (byteAt [0xA5#8, 0x00#8, 0xFF#8, 0x00#8, 0x00#8] 2).toNat ∧
    ([0xA5#8, 0x00#8, 0x01#8, 0x00#8, 0x00#8] : List Byte).length ≠
      5 + (byteAt [0xA5#8, 0x00#8, 0x01#8, 0x00#8, 0x00#8] 2).toNat ∧
    65535 < natOfBytes [0#8, 1#8, 0#8, 0#8] ∧ 127 < natOfBytes [0#8, 0#8, 0#8, 0x80#8] ∧
    0x04#8 ∉ [1#8, 2#8, 3#8, 5#8, 9#8] ∧ ([0#8, 0#8, 0#8] : List Byte).length ≠ 4 := by decide

theorem witness_too_long :
    254 < (List.replicate 255 0xAA#8).length ∧ 259 < (List.replicate 260 0xAA#8).length := by
  simp only [List.length_replicate]
  decide

end Sys2Proof.Tests
end

section
/-!
SUPPORT. The reset values (10_state.md R49): what each field of `State.reset` holds, what the reset input makes a step do
(70_reset_and_hazards.md R360, R361), and the obligation over both.
-/

namespace Sys2Proof.Machine

/-! ## The fields of `State.reset`: the rows of R49 -/

@[simp] theorem reset_ns : State.reset.ns = false := rfl
@[simp] theorem reset_nr : State.reset.nr = false := rfl
@[simp] theorem reset_latch : State.reset.latch = false := rfl
@[simp] theorem reset_txbuf : State.reset.txbuf = zeros Config.frameBytes := rfl
@[simp] theorem reset_txlen : State.reset.txlen = 0 := rfl
@[simp] theorem reset_rxbuf : State.reset.rxbuf = zeros Config.frameBytes := rfl
@[simp] theorem reset_rxlen : State.reset.rxlen = 0 := rfl
@[simp] theorem reset_atrbuf : State.reset.atrbuf = zeros Config.atrBytes := rfl
@[simp] theorem reset_atrlen : State.reset.atrlen = 0 := rfl
@[simp] theorem reset_segtUs : State.reset.segtUs = 10#16 := rfl
@[simp] theorem reset_mpotUs : State.reset.mpotUs = 1000#16 := rfl
@[simp] theorem reset_bwtMs : State.reset.bwtMs = 1000#16 := rfl
@[simp] theorem reset_i2cAddr : State.reset.i2cAddr = 0#7 := rfl
@[simp] theorem reset_lastRx : State.reset.lastRx = ⟨0#8, 0#8, 0#8⟩ := rfl
@[simp] theorem reset_nadMismatch : State.reset.nadMismatch = false := rfl
@[simp] theorem reset_receiving : State.reset.receiving = none := rfl

/-- The derived row of R49: 1000 ms of BWT polled every 1000 µs (R41). -/
@[simp] theorem maxRetries_reset : maxRetries State.reset = 1000 := by simp [maxRetries]

/-- A reset brings MAX_RETRIES back too: its two registers are among the reset ones. -/
@[simp] theorem maxRetries_blockReset (s : State) : maxRetries (blockReset s) = maxRetries State.reset :=
  maxRetries_congr (blockReset_bwtMs s) (blockReset_mpotUs s)

/-- TXBUF and RXBUF after reset, as bytes (R35, R36). -/
theorem zeros_frameBytes : zeros Config.frameBytes = List.replicate 259 0#8 := rfl

/-- ATRBUF after reset, as bytes (R37). -/
theorem zeros_atrBytes : zeros Config.atrBytes = List.replicate 254 0#8 := rfl

/-! ## The reset input -/

/-- The reset input comes before everything else a step could do: a receive in progress and the port are not looked at. -/
theorem step_of_resetPin {s : State} (hpin : s.resetPin = true) : step s = .next (blockReset s) :=
  if_pos hpin

/-- Settles O8: with the reset input set the step is `blockReset`, whose registers and buffers are those of `State.reset`. -/
theorem resetValuesOfEveryField : Obligations.ResetValuesOfEveryField := by
  unfold Obligations.ResetValuesOfEveryField
  constructor
  case left =>
    intro s hpin
    refine ⟨blockReset s, step_of_resetPin hpin, ?_⟩
    simp [zeros_frameBytes, zeros_atrBytes]
  case right => simp [zeros_frameBytes, zeros_atrBytes]

end Sys2Proof.Machine
end

section
/-!
SUPPORT. The legality checks of a command frame (30_encoding.md R103): the checks on a frame's bytes are those of the command's
own `check` function, and what a command that passes them can complete with.
-/

namespace Sys2Proof.Machine

/-! ## The checks on a frame's bytes, opcode by opcode -/

/-- The legality check of a command (R103, R106); every ILLEGAL frame fails its own, and a block row has none. -/
def commandCheck : Instr → Option Status
  | .crcCalc arg data => checkCrcCalc arg data
  | .frameEncode arg data => checkFrameEncode arg data
  | .frameDecode arg data => checkFrameDecode arg data
  | .sendI arg data => checkSendI arg data
  | .sendR arg data => checkSendR arg data
  | .sendS arg data => checkSendS arg data
  | .recv arg data => checkPlain arg data
  | .softReset arg data => checkPlain arg data
  | .hardReset arg data => checkPlain arg data
  | .clearSeq arg data => checkPlain arg data
  | .endExchange arg data => checkPlain arg data
  | .rdreg arg data => checkRdreg arg data
  | .wrreg arg data => checkWrreg arg data
  | .readBuf arg data => checkReadBuf arg data
  | .illegal _ _ _ => some .errIllegalCmd
  | _ => none

/-- The first check: an opcode outside the map has no row in the table. -/
theorem refusalOf_illegal {opc : Byte} (h : opc ∉ definedOpcodes) (arg : Byte) (data : List Byte) :
    refusalOf opc arg data = some .errIllegalCmd := by
  have hrow : argTable.find? (fun row => row.1 == opc) = none := by
    rw [List.find?_eq_none]
    intro row hmem heq
    have : row.1 ∈ definedOpcodes := List.mem_map_of_mem (f := Prod.fst) hmem
    exact h (eq_of_beq heq ▸ this)
  simp only [refusalOf, hrow]

/-- For an opcode with no check of its own beside the table's row, the six checks are the reserved bits and the DLEN range. -/
theorem refusalOf_eq_argThenLen {opc reserved : Byte} {least most : Nat}
    (hrow : argTable.find? (fun row => row.1 == opc) = some (opc, reserved, least, most))
    (hplain : opc ∉ [0x03#8, 0x11#8, 0x30#8, 0x31#8, 0x32#8]) (arg : Byte) (data : List Byte) :
    refusalOf opc arg data = argThenLen reserved least most arg data := by
  simp only [List.mem_cons, List.not_mem_nil, or_false, not_or] at hplain
  simp only [refusalOf, hrow, argThenLen, hplain, false_and, or_false, if_false]

theorem refusalOf_frameDecode (arg : Byte) (data : List Byte) :
    refusalOf 0x03#8 arg data = checkFrameDecode arg data := by
  have hrow : argTable.find? (fun row => row.1 == 0x03#8) = some (0x03#8, 0xFF#8, 5, 259) := rfl
  simp only [refusalOf, hrow, checkFrameDecode, argThenLen, Config.maxInf, Config.frameBytes]
  by_cases harg : arg &&& 0xFF#8 ≠ 0#8
  · simp [harg]
  · by_cases hlen : data.length < 5 ∨ 259 < data.length
    · simp [harg, hlen]
    · simp [harg, hlen, or_comm]

/-- Both readings of EE = 3: the two low bits of ARG as a mask and as a field (R103, R112). -/
theorem and_three_eq_three_iff (arg : Byte) : arg &&& 3#8 = 3#8 ↔ arg.extractLsb' 0 2 = 3#2 := by
  revert arg
  decide

theorem refusalOf_sendR (arg : Byte) (data : List Byte) : refusalOf 0x11#8 arg data = checkSendR arg data := by
  have hrow : argTable.find? (fun row => row.1 == 0x11#8) = some (0x11#8, 0xEC#8, 0, 0) := rfl
  simp only [refusalOf, hrow, checkSendR, argThenLen]
  by_cases hee : arg.extractLsb' 0 2 = 3#2
  · simp [hee, (and_three_eq_three_iff arg).2 hee]
  · simp [hee, mt (and_three_eq_three_iff arg).1 hee]

theorem refusalOf_rdreg (arg : Byte) (data : List Byte) : refusalOf 0x30#8 arg data = checkRdreg arg data := by
  have hrow : argTable.find? (fun row => row.1 == 0x30#8) = some (0x30#8, 0x00#8, 0, 0) := rfl
  simp only [refusalOf, hrow, checkRdreg, argThenLen]
  simp

theorem refusalOf_readBuf (arg : Byte) (data : List Byte) : refusalOf 0x32#8 arg data = checkReadBuf arg data := by
  have hrow : argTable.find? (fun row => row.1 == 0x32#8) = some (0x32#8, 0x00#8, 0, 0) := rfl
  simp only [refusalOf, hrow, checkReadBuf, argThenLen]
  simp

/-- The bytes of a WRREG value make the same number in the model's word and in the spec's big-endian reading (R76, R294). -/
theorem toNat_wrregValue (data : List Byte) : (wrregValue data).toNat = natOfBytes data := by
  have h1 := (byteAt data 1).isLt
  have h2 := (byteAt data 2).isLt
  have h3 := (byteAt data 3).isLt
  rw [wrregValue, BitVec.toNat_append, BitVec.toNat_append, BitVec.toNat_append, ← Nat.shiftLeft_add_eq_or_of_lt h1,
    ← Nat.shiftLeft_add_eq_or_of_lt h2, ← Nat.shiftLeft_add_eq_or_of_lt h3]
  simp only [natOfBytes, Nat.shiftLeft_eq]
  omega

/-- The value ranges of the writable registers, in the model's words and in the spec's numbers (R38 to R42, R294). -/
theorem illegalValue_eq_not_legalRegValue {reg : Byte} (hreg : reg ∈ writableRegs) (data : List Byte) :
    illegalValue reg (wrregValue data) = !legalRegValue reg (natOfBytes data) := by
  have hzero : wrregValue data = 0#32 ↔ natOfBytes data = 0 := by
    rw [← toNat_wrregValue, BitVec.toNat_eq, BitVec.toNat_ofNat, Nat.zero_mod]
  simp only [writableRegs, List.mem_cons, List.not_mem_nil, or_false] at hreg
  rcases hreg with rfl | rfl | rfl | rfl | rfl <;>
    simp [illegalValue, legalRegValue, toNat_wrregValue, hzero, ← decide_not]

theorem refusalOf_wrreg (arg : Byte) (data : List Byte) : refusalOf 0x31#8 arg data = checkWrreg arg data := by
  have hrow : argTable.find? (fun row => row.1 == 0x31#8) = some (0x31#8, 0x00#8, 4, 4) := rfl
  simp only [refusalOf, hrow, checkWrreg, argThenLen]
  by_cases hreg : arg ∈ [0x01#8, 0x02#8, 0x03#8, 0x05#8, 0x09#8]
  · have hwritable : writableRegs.contains arg = true := List.elem_eq_true_of_mem hreg
    have hval := illegalValue_eq_not_legalRegValue hreg data
    by_cases hlen : data.length < 4 ∨ 4 < data.length
    · simp only [hreg, hwritable, hlen]
      simp
    · simp only [hreg, hwritable, hlen, hval]
      simp
  · have hwritable : writableRegs.contains arg = false := by simpa [writableRegs] using hreg
    simp only [hreg, hwritable]
    simp

/-- The checks on the bytes of a command's frame are the command's own check. -/
theorem refusalOf_encode {i : Instr} (hwf : i.wf = true) (hl : i.layer = .command) :
    refusalOf (byteAt (encode i) 0) (byteAt (encode i) 1) ((encode i).drop 4) = commandCheck i := by
  cases i with
  | crcCalc arg data => exact refusalOf_eq_argThenLen (opc := 0x01#8) rfl (by decide) arg data
  | frameEncode arg data => exact refusalOf_eq_argThenLen (opc := 0x02#8) rfl (by decide) arg data
  | frameDecode arg data => exact refusalOf_frameDecode arg data
  | sendI arg data => exact refusalOf_eq_argThenLen (opc := 0x10#8) rfl (by decide) arg data
  | sendR arg data => exact refusalOf_sendR arg data
  | sendS arg data => exact refusalOf_eq_argThenLen (opc := 0x12#8) rfl (by decide) arg data
  | recv arg data => exact refusalOf_eq_argThenLen (opc := 0x13#8) rfl (by decide) arg data
  | softReset arg data => exact refusalOf_eq_argThenLen (opc := 0x14#8) rfl (by decide) arg data
  | hardReset arg data => exact refusalOf_eq_argThenLen (opc := 0x15#8) rfl (by decide) arg data
  | clearSeq arg data => exact refusalOf_eq_argThenLen (opc := 0x20#8) rfl (by decide) arg data
  | endExchange arg data => exact refusalOf_eq_argThenLen (opc := 0x21#8) rfl (by decide) arg data
  | rdreg arg data => exact refusalOf_rdreg arg data
  | wrreg arg data => exact refusalOf_wrreg arg data
  | readBuf arg data => exact refusalOf_readBuf arg data
  | illegal opc arg data =>
    have hopc : opc ∉ definedOpcodes := by
      simp only [Instr.wf, Bool.and_eq_true] at hwf
      obtain ⟨hopc, -⟩ := hwf
      simpa using hopc
    exact refusalOf_illegal hopc arg data
  | _ => cases hl

/-! ## What a transfer and a receive can end with -/

/-- How a transfer ends (R205). -/
def transferStatuses : List Status := [.ok, .errTransport, .errNackTimeout]

/-- How a RecvBlock ends (R205, R250, R251, R258). -/
def receiveStatuses : List Status :=
  [.ok, .errTransport, .errNackTimeout, .errProtoLen, .errProtoCrc, .errRetxExhausted, .errWtxLimit]

/-- The status of an answer that is known as a pair. -/
theorem mem_of_fst_mem {β : Type} {p : Status × β} {st : Status} {b : β} {l : List Status} (hp : p.1 ∈ l)
    (h : p = (st, b)) : st ∈ l := by
  subst h
  exact hp

theorem xfer_status (dir : BusDir) (n : Nat) (data : List Byte) (s : State) :
    (xfer dir n data s).1 ∈ transferStatuses := by
  rw [xfer_eq]
  rcases xferRetry_result s dir n data (maxRetries s) s.link with ⟨h, -⟩ | ⟨h, -⟩ | ⟨h, -⟩ <;> simp [h, transferStatuses]

theorem mem_receiveStatuses {st : Status} (h : st ∈ transferStatuses) : st ∈ receiveStatuses := by
  revert st; decide

theorem frameSend_status (pcb : Byte) (inf : List Byte) (s : State) : (frameSend pcb inf s).1 ∈ transferStatuses := by
  simp only [frameSend]
  split
  · exact List.mem_cons_self
  next herr => exact mem_of_fst_mem (xfer_status _ _ _ _) herr

theorem wtxRespond_status (e : Byte) (s : State) : (wtxRespond e s).1 ∈ transferStatuses := by
  simp only [wtxRespond]
  split
  · exact xfer_status _ _ _ _
  · exact frameSend_status _ _ _

theorem retransmit_status (s : State) : (retransmit s).1 ∈ receiveStatuses := by
  simp only [retransmit]
  split
  · simp [receiveStatuses]
  · exact mem_receiveStatuses (xfer_status _ _ _ _)

theorem acceptFrame_status (s : State) : (acceptFrame s).1 ∈ receiveStatuses := by
  simp only [acceptFrame]
  split <;> simp [receiveStatuses]

theorem readBlock_status (s : State) : (readBlock s).1 ∈ receiveStatuses := by
  have hread (n : Nat) (s : State) := mem_receiveStatuses (xfer_status .read n [] s)
  simp only [readBlock]
  split
  · split
    · simp [receiveStatuses]
    · split
      · exact acceptFrame_status _
      · split
        · exact acceptFrame_status _
        next herr => exact mem_of_fst_mem (hread _ _) herr
  next herr => exact mem_of_fst_mem (hread _ _) herr

theorem passWtxRequest_status {left : Nat} {s s1 : State} {st : Status}
    (h : passWtxRequest left s = (.done st, s1)) : st ∈ receiveStatuses := by
  simp only [passWtxRequest] at h
  split at h
  · cases h
    simp [receiveStatuses]
  · split at h
    · cases h
    next e s2 _ herr =>
      cases h
      exact mem_receiveStatuses (mem_of_fst_mem (wtxRespond_status _ _) herr)

theorem passRError_status {left : Nat} {s s1 : State} {st : Status}
    (h : passRError left s = (.done st, s1)) : st ∈ receiveStatuses := by
  simp only [passRError] at h
  split at h
  · cases h
    simp [receiveStatuses]
  · split at h
    · cases h
    next e s2 _ herr =>
      cases h
      exact mem_of_fst_mem (retransmit_status _) herr

theorem pass_status {pcb : Byte} {left : Nat} {s s1 : State} {st : Status} (h : pass pcb left s = (.done st, s1)) :
    st ∈ receiveStatuses := by
  simp only [pass] at h
  split at h
  · exact passWtxRequest_status h
  · split at h
    · exact passRError_status h
    · cases h
      simp [receiveStatuses]

theorem recvBlock_status (left : Nat) (s : State) : (recvBlock left s).1 ∈ receiveStatuses := by
  fun_induction recvBlock left s with
  | case1 left s s1 hread st s2 hpass => exact pass_status hpass
  | case2 s s1 hread s2 hpass => simp [receiveStatuses]
  | case3 s s1 hread s2 left hpass ih => exact ih
  | case4 left s e s1 he hread => exact mem_of_fst_mem (readBlock_status s) hread

/-! ## How a command completes -/

/-- The three host-interface errors (R320): those of the legality checks. -/
def hostInterfaceErrors : List Status := [.errIllegalCmd, .errParam, .errReg]

/-- From `s` to `t` one response is given, and its status is none of the host-interface errors. -/
def CompletesLegally (s t : State) : Prop := ∃ r, t.out = s.out ++ [r] ∧ r.status ∉ hostInterfaceErrors

theorem not_hostInterface_of_mem_receiveStatuses {st : Status} (h : st ∈ receiveStatuses) : st ∉ hostInterfaceErrors := by
  revert st
  decide

/-- A completion in a state with the responses of `s`. -/
theorem complete_completesLegally {s s1 : State} {st : Status} (hst : st ∉ hostInterfaceErrors) (d : List Byte)
    (hout : s1.out = s.out) : CompletesLegally s (complete st d s1) :=
  ⟨⟨st, d⟩, by rw [complete_out, hout], hst⟩

/-- A token check answers OK or one of two protocol errors (R238). -/
theorem tokenStatus_not_hostInterface (pcb : Byte) (ns : Bool) : tokenStatus pcb ns ∉ hostInterfaceErrors := by
  simp only [tokenStatus]
  split
  · decide
  · split
    · decide
    · split <;> decide

theorem finish_completesLegally {s s1 : State} {st : Status} (c : Caller) (hst : st ∈ receiveStatuses) (pcb : Byte)
    (hout : s1.out = s.out) : CompletesLegally s (finish c st pcb s1) := by
  by_cases hok : st = .ok
  · subst hok
    cases c with
    | recv => exact complete_completesLegally (by decide) _ hout
    | token => exact complete_completesLegally (tokenStatus_not_hostInterface _ _) _ hout
    | softReset =>
      simp only [finish]
      split <;> exact complete_completesLegally (by decide) _ hout
    | hardReset =>
      simp only [finish]
      split <;> exact complete_completesLegally (by decide) _ hout
  · have hraise : finish c st pcb s1 = raise st s1 := by
      cases st with
      | ok => exact absurd rfl hok
      | _ => rfl
    rw [hraise]
    exact complete_completesLegally (not_hostInterface_of_mem_receiveStatuses hst) _ hout

theorem recvBlock_out (left : Nat) (s : State) : (recvBlock left s).2.out = s.out := by
  obtain ⟨_, _, _, _, _, _, _, _, _, h⟩ := recvBlock_state left s
  rw [h]

theorem frameSend_out (pcb : Byte) (inf : List Byte) (s : State) : (frameSend pcb inf s).2.out = s.out := by
  obtain ⟨_, _, h⟩ := frameSend_state pcb inf s
  rw [h, loadTx]

theorem runReceive_completesLegally {s s1 : State} (c : Caller) (hout : s1.out = s.out) :
    CompletesLegally s (runReceive c s1) :=
  finish_completesLegally c (recvBlock_status _ _) _ ((recvBlock_out _ _).trans hout)

/-- What a command does with the answer of its FrameSend: `k` on success, else error completion (R236, R240, R242, R270, R272). -/
def afterFrameSend (k : State → State) : Status × State → State
  | (.ok, s) => k s
  | (e, s) => raise e s

theorem afterFrameSend_completesLegally {s s1 : State} {k : State → State} (pcb : Byte) (inf : List Byte)
    (hout : s1.out = s.out) (hk : ∀ s2, s2.out = s.out → CompletesLegally s (k s2)) :
    CompletesLegally s (afterFrameSend k (frameSend pcb inf s1)) := by
  have hst := mem_receiveStatuses (frameSend_status pcb inf s1)
  have hout' := (frameSend_out pcb inf s1).trans hout
  rcases hsend : frameSend pcb inf s1 with ⟨st, s2⟩
  rw [hsend] at hst hout'
  by_cases hok : st = .ok
  · subst hok
    exact hk s2 hout'
  · have hraise : afterFrameSend k (st, s2) = raise st s2 := by
      cases st with
      | ok => exact absurd rfl hok
      | _ => rfl
    rw [hraise]
    exact complete_completesLegally (not_hostInterface_of_mem_receiveStatuses hst) _ hout'

/-- A command with its legality check in front (R103): a failed check is an error completion in the state as it was. -/
def checkedThen (check : Option Status) (s t : State) : State :=
  match check with
  | some e => raise e s
  | none => t

@[simp] theorem writeReg_out (reg : Byte) (v : Word) (s : State) : (writeReg reg v s).out = s.out := by
  simp only [writeReg]
  split_ifs <;> rfl

/-- A command is its legality check, and behind it what completes with no host-interface error. (An ILLEGAL frame's check always
fails, so what stands behind it never runs.) -/
theorem exec_command {i : Instr} (hl : i.layer = .command) (s : State) :
    ∃ t, CompletesLegally s t ∧ exec i s = .next (checkedThen (commandCheck i) s t) := by
  have hok {t : State} (d : List Byte) (hout : t.out = s.out) : CompletesLegally s (complete .ok d t) :=
    complete_completesLegally (by decide) d hout
  cases i with
  | crcCalc arg data => exact ⟨_, hok _ rfl, rfl⟩
  | frameEncode arg data => exact ⟨_, hok _ rfl, rfl⟩
  | frameDecode arg data =>
    refine ⟨if (verifyFrame data).2 then complete .ok (data.take (3 + frameLen data)) s else raise .errProtoCrc s, ?_, rfl⟩
    split
    · exact hok _ rfl
    · exact complete_completesLegally (by decide) _ rfl
  | sendI arg data =>
    refine ⟨_, afterFrameSend_completesLegally (s1 := { s with ns := !s.ns }) (packI s.ns (arg.getLsbD 5)) data
      (k := fun s1 => if arg.getLsbD 5 then runReceive .token s1 else complete .ok [] s1) rfl ?_, rfl⟩
    intro s1 hout
    split
    · exact runReceive_completesLegally _ hout
    · exact hok _ hout
  | sendR arg data =>
    exact ⟨_, afterFrameSend_completesLegally (packR (arg.getLsbD 4) (arg.extractLsb' 0 2)) [] rfl fun _ => hok [], rfl⟩
  | sendS arg data =>
    exact ⟨_, afterFrameSend_completesLegally (packS (arg.getLsbD 5) (arg.extractLsb' 0 5)) data rfl fun _ => hok [], rfl⟩
  | recv arg data => exact ⟨_, runReceive_completesLegally .recv rfl, rfl⟩
  | softReset arg data =>
    exact ⟨_, afterFrameSend_completesLegally (packS false 15#5) [] rfl fun _ => runReceive_completesLegally .softReset, rfl⟩
  | hardReset arg data =>
    exact ⟨_, afterFrameSend_completesLegally (packS false 6#5) [] rfl fun _ => runReceive_completesLegally .hardReset, rfl⟩
  | clearSeq arg data => exact ⟨_, hok (t := { s with ns := false, nr := false }) [] rfl, rfl⟩
  | endExchange arg data =>
    exact ⟨_, hok (t := { s with
      txbuf := zeros Config.frameBytes, txlen := 0, rxbuf := zeros Config.frameBytes, rxlen := 0, latch := false }) [] rfl, rfl⟩
  | rdreg arg data => exact ⟨_, hok _ rfl, rfl⟩
  | wrreg arg data => exact ⟨_, hok [] (writeReg_out arg (wrregValue data) s), rfl⟩
  | readBuf arg data => exact ⟨_, hok _ rfl, rfl⟩
  | illegal opc arg data => exact ⟨complete .ok [] s, hok [] rfl, rfl⟩
  | _ => cases hl

/-! ## The obligation -/

/-- Settles O13: the checks on the bytes are the command's check, and a command is that check with its completion behind it. -/
theorem refusedFramesChangeNothing : Obligations.RefusedFramesChangeNothing := by
  unfold Obligations.RefusedFramesChangeNothing
  intro i s hwf hl
  rw [refusalOf_encode hwf hl]
  obtain ⟨t, ⟨r, hout, hst⟩, hexec⟩ := exec_command hl s
  constructor
  case left =>
    intro e hrefused
    rw [hexec, hrefused]
    rfl
  case right =>
    intro hlegal
    rw [hexec, hlegal]
    exact ⟨t, r, rfl, hout, hst⟩

end Sys2Proof.Machine
end

section
/-!
SUPPORT. The CRC family (41_crc.md): the two bytes of a CRC value, the CRC register along a byte sequence (R150), the outcome of
CRC_CALC, and the obligation over it (R155).
-/

namespace Sys2Proof.Machine

/-! ## The CRC value and the CRC register -/

/-- High byte first, the two bytes are the number (R74). -/
theorem crcHi_mul_add_crcLo (v : Crc) : (crcHi v).toNat * 256 + (crcLo v).toNat = v.toNat := by
  have hv := v.isLt
  simp only [crcHi, crcLo, BitVec.extractLsb'_toNat, Nat.shiftRight_eq_div_pow]
  omega

@[simp] theorem crcUnswapped_nil : crcUnswapped [] = 0#16 := BitVec.xor_self

@[simp] theorem crc16_nil : crc16 [] = 0#16 := by
  rw [crc16, crcUnswapped_nil]
  rfl

/-- The CRC register before the final XOR: XORing with the same constant once more undoes it (R150). -/
theorem crcUnswapped_xor_ones (s : List Byte) : crcUnswapped s ^^^ 0xFFFF#16 = s.foldl crcByte 0xFFFF#16 := by
  rw [crcUnswapped, BitVec.xor_assoc, BitVec.xor_self, BitVec.xor_zero]

/-- The CRC of `s` and then `t` starts the register for `t` where `s` left it. -/
theorem crcUnswapped_append (s t : List Byte) :
    crcUnswapped (s ++ t) = t.foldl crcByte (crcUnswapped s ^^^ 0xFFFF#16) ^^^ 0xFFFF#16 := by
  rw [crcUnswapped_xor_ones, crcUnswapped, List.foldl_append]

/-! ## CRC_CALC -/

theorem exec_crcCalc (arg : Byte) (data : List Byte) (s : State) :
    exec (.crcCalc arg data) s = execCrcCalc arg data s := rfl

/-- With every ARG bit reserved, only ARG = 0 passes the check (R103 step 2). -/
theorem argThenLen_of_arg_ne_zero {arg : Byte} (harg : arg ≠ 0#8) (least most : Nat) (data : List Byte) :
    argThenLen 0xFF#8 least most arg data = some .errParam := by
  have hmask : arg &&& 0xFF#8 = arg := BitVec.and_allOnes
  rw [argThenLen, hmask, if_pos harg]

/-- ARG = 0 and a DLEN in range pass the check (R103 steps 2 and 4). -/
theorem argThenLen_zero_of_length {least most : Nat} {data : List Byte} (hleast : least ≤ data.length)
    (hmost : data.length ≤ most) (reserved : Byte) : argThenLen reserved least most 0#8 data = none := by
  have hlen : ¬ (data.length < least ∨ most < data.length) := by omega
  rw [argThenLen, BitVec.zero_and, if_neg (not_not_intro rfl), if_neg hlen]

/-- A CRC_CALC that passes its check only responds, with the two CRC bytes. -/
theorem execCrcCalc_of_legal {arg : Byte} {data : List Byte} (h : checkCrcCalc arg data = none) (s : State) :
    execCrcCalc arg data s = .next (complete .ok [crcHi (crc16 data), crcLo (crc16 data)] s) := by
  rw [execCrcCalc, h]

/-- A CRC_CALC that fails its check only responds, with the error. -/
theorem execCrcCalc_of_refused {arg : Byte} {data : List Byte} {e : Status} (h : checkCrcCalc arg data = some e)
    (s : State) : execCrcCalc arg data s = .next (raise e s) := by
  rw [execCrcCalc, h]

/-! ## The obligation -/

/-- Settles O19: the check decides between the two outcomes of CRC_CALC; the CRC register goes on where the DATA left it. -/
theorem crcCalcAnswersTheCrc : Obligations.CrcCalcAnswersTheCrc := by
  unfold Obligations.CrcCalcAnswersTheCrc
  refine ⟨?answer, ?refused, crc16_nil, ?oneMoreByte⟩
  case answer =>
    intro s data hlen
    have hlegal : checkCrcCalc 0#8 data = none := argThenLen_zero_of_length (Nat.zero_le _) hlen _
    refine ⟨crcHi (crc16 data), crcLo (crc16 data), ?_, crcHi_mul_add_crcLo _⟩
    rw [exec_crcCalc, execCrcCalc_of_legal hlegal, complete]
  case refused =>
    intro s arg data harg
    have hrefused : checkCrcCalc arg data = some .errParam := argThenLen_of_arg_ne_zero harg _ _ _
    rw [exec_crcCalc, execCrcCalc_of_refused hrefused, raise, complete]
  case oneMoreByte =>
    intro data b
    exact crcUnswapped_append data [b]

end Sys2Proof.Machine
end

section
/-!
SUPPORT. The codec family (42_codec.md): a frame body with any two bytes behind it (R176, R177), the legality checks and the
outcomes of FRAME_ENCODE and FRAME_DECODE, and the obligations over both (R180, R182).
-/

namespace Sys2Proof.Machine

/-! ## Frames: a body and two more bytes -/

/-- The bytes in front of the CRC, as the spec lists them (R108). -/
theorem frameBody_eq (nad pcb : Byte) (inf : List Byte) :
    frameBody nad pcb inf = [nad, pcb, BitVec.ofNat 8 inf.length] ++ inf := rfl

theorem buildFrame_eq (nad pcb : Byte) (inf : List Byte) :
    buildFrame nad pcb inf =
      frameBody nad pcb inf ++ [crcHi (crc16 (frameBody nad pcb inf)), crcLo (crc16 (frameBody nad pcb inf))] := rfl

theorem frameBody_append_length (nad pcb hi lo : Byte) (inf : List Byte) :
    (frameBody nad pcb inf ++ [hi, lo]).length = 5 + inf.length := by
  rw [List.length_append, frameBody_length]
  exact Nat.add_right_comm 3 inf.length 2

/-- An INF of up to 254 bytes fits the LEN byte, whatever stands behind the body. -/
theorem frameLen_frameBody_append (nad pcb : Byte) {inf : List Byte} (h : inf.length ≤ 254) (t : List Byte) :
    frameLen (frameBody nad pcb inf ++ t) = inf.length :=
  Nat.mod_eq_of_lt (by omega)

theorem take_frameBody_append (nad pcb : Byte) (inf t : List Byte) :
    (frameBody nad pcb inf ++ t).take (3 + inf.length) = frameBody nad pcb inf :=
  List.take_left' (frameBody_length nad pcb inf)

/-- Two bytes read high byte first are a CRC value when they are its number (R74, R75). -/
theorem append_eq_crc_iff (hi lo : Byte) (v : Crc) :
    (hi ++ lo : BitVec 16) = v ↔ hi.toNat * 256 + lo.toNat = v.toNat := by
  rw [BitVec.toNat_eq, BitVec.toNat_append, ← Nat.shiftLeft_add_eq_or_of_lt lo.isLt, Nat.shiftLeft_eq]

/-- The CRC test of R177 on a body with any two bytes behind it: they are the CRC of the body, high byte first. -/
theorem verifyFrame_frameBody_append (nad pcb hi lo : Byte) {inf : List Byte} (h : inf.length ≤ 254) :
    (verifyFrame (frameBody nad pcb inf ++ [hi, lo])).2 = true ↔
      hi.toNat * 256 + lo.toNat = (crc16 (frameBody nad pcb inf)).toNat := by
  have hhi : byteAt (frameBody nad pcb inf ++ [hi, lo]) (3 + inf.length) = hi := by
    rw [byteAt_append_right (frameBody_length nad pcb inf).le, frameBody_length, Nat.sub_self, byteAt_cons_zero]
  have hlo : byteAt (frameBody nad pcb inf ++ [hi, lo]) (4 + inf.length) = lo := by
    have hpos : 4 + inf.length = 3 + inf.length + 1 := by omega
    rw [byteAt_append_right (by rw [frameBody_length]; omega), frameBody_length, hpos, Nat.add_sub_cancel_left,
      byteAt_cons_succ, byteAt_cons_zero]
  rw [verifyFrame, frameLen_frameBody_append nad pcb h, hhi, hlo, take_frameBody_append, beq_iff_eq, append_eq_crc_iff]

/-! ## The legality checks (R103) -/

/-- A DLEN out of range is ERR_PARAM, with or without reserved ARG bits set (R103 steps 2 and 4). -/
theorem argThenLen_of_length {least most : Nat} {data : List Byte} (h : data.length < least ∨ most < data.length)
    (reserved arg : Byte) : argThenLen reserved least most arg data = some .errParam := by
  rw [argThenLen, if_pos h, ite_self]

/-- With no ARG bit reserved the check does not look at ARG. -/
theorem argThenLen_none_reserved (least most : Nat) (arg : Byte) (data : List Byte) :
    argThenLen 0#8 least most arg data = argThenLen 0#8 least most 0#8 data := by
  rw [argThenLen, argThenLen, BitVec.and_zero, BitVec.and_zero]

theorem checkFrameEncode_of_length_le (pcb : Byte) {inf : List Byte} (h : inf.length ≤ 254) :
    checkFrameEncode pcb inf = none := by
  rw [checkFrameEncode, argThenLen_none_reserved]
  exact argThenLen_zero_of_length (Nat.zero_le _) h _

theorem checkFrameEncode_of_lt_length (pcb : Byte) {inf : List Byte} (h : 254 < inf.length) :
    checkFrameEncode pcb inf = some .errParam :=
  argThenLen_of_length (.inr h) _ _

/-- The shape of a DATA that FRAME_DECODE looks into (R103 steps 4 and 6): a LEN byte of at most 254 that the length agrees with. -/
def frameShaped (data : List Byte) : Prop := frameLen data ≤ 254 ∧ data.length = 5 + frameLen data

theorem frameShaped_frameBody_append (nad pcb hi lo : Byte) {inf : List Byte} (h : inf.length ≤ 254) :
    frameShaped (frameBody nad pcb inf ++ [hi, lo]) := by
  rw [frameShaped, frameLen_frameBody_append nad pcb h]
  exact ⟨h, frameBody_append_length nad pcb hi lo inf⟩

/-- A DATA of the right shape passes: its DLEN is then in 5 to 259. -/
theorem checkFrameDecode_of_shaped {data : List Byte} (h : frameShaped data) : checkFrameDecode 0#8 data = none := by
  obtain ⟨hlen, hdlen⟩ := h
  have hrange : argThenLen 0xFF#8 5 Config.frameBytes 0#8 data = none :=
    argThenLen_zero_of_length (by omega) (show data.length ≤ 259 by omega) _
  have hagree : ¬ (254 < frameLen data ∨ data.length ≠ 5 + frameLen data) := by omega
  rw [checkFrameDecode, hrange]
  exact if_neg hagree

/-- FRAME_DECODE has one error for its operands, whichever of its checks fails first. -/
theorem checkFrameDecode_of_refused {arg : Byte} {data : List Byte} (h : arg ≠ 0#8 ∨ ¬ frameShaped data) :
    checkFrameDecode arg data = some .errParam := by
  rw [checkFrameDecode, Config.frameBytes]
  by_cases harg : arg = 0#8
  · subst harg
    have hshape : ¬ frameShaped data := h.resolve_left (not_not_intro rfl)
    by_cases hrange : 5 ≤ data.length ∧ data.length ≤ 259
    · obtain ⟨hleast, hmost⟩ := hrange
      rw [argThenLen_zero_of_length hleast hmost]
      refine if_pos (show 254 < frameLen data ∨ data.length ≠ 5 + frameLen data from ?_)
      rw [frameShaped] at hshape
      omega
    · rw [argThenLen_of_length (show data.length < 5 ∨ 259 < data.length by omega)]
  · rw [argThenLen_of_arg_ne_zero harg]

/-! ## FRAME_ENCODE and FRAME_DECODE -/

theorem exec_frameEncode (arg : Byte) (data : List Byte) (s : State) :
    exec (.frameEncode arg data) s = execFrameEncode arg data s := rfl

theorem exec_frameDecode (arg : Byte) (data : List Byte) (s : State) :
    exec (.frameDecode arg data) s = execFrameDecode arg data s := rfl

/-- A FRAME_ENCODE that passes its check only responds, with the frame. -/
theorem execFrameEncode_of_legal {arg : Byte} {data : List Byte} (h : checkFrameEncode arg data = none) (s : State) :
    execFrameEncode arg data s = .next (complete .ok (buildFrame 0x5A#8 arg data) s) := by
  rw [execFrameEncode, h, Config.nadHost]

/-- A FRAME_ENCODE that fails its check only responds, with the error. -/
theorem execFrameEncode_of_refused {arg : Byte} {data : List Byte} {e : Status} (h : checkFrameEncode arg data = some e)
    (s : State) : execFrameEncode arg data s = .next (raise e s) := by
  rw [execFrameEncode, h]

/-- A FRAME_DECODE that passes its check only responds; the CRC test decides between the body and ERR_PROTO_CRC. -/
theorem execFrameDecode_of_legal {arg : Byte} {data : List Byte} (h : checkFrameDecode arg data = none) (s : State) :
    execFrameDecode arg data s = .next (if (verifyFrame data).2 then complete .ok (data.take (3 + frameLen data)) s
      else raise .errProtoCrc s) := by
  rw [execFrameDecode, h]

/-- A FRAME_DECODE that fails its check only responds, with the error. -/
theorem execFrameDecode_of_refused {arg : Byte} {data : List Byte} {e : Status} (h : checkFrameDecode arg data = some e)
    (s : State) : execFrameDecode arg data s = .next (raise e s) := by
  rw [execFrameDecode, h]

/-- FRAME_DECODE of a body with any two bytes behind it: the body if they are its CRC, else ERR_PROTO_CRC (R182). -/
theorem exec_frameDecode_frameBody_append (nad pcb hi lo : Byte) {inf : List Byte} (h : inf.length ≤ 254) (s : State) :
    exec (.frameDecode 0#8 (frameBody nad pcb inf ++ [hi, lo])) s =
      .next (if hi.toNat * 256 + lo.toNat = (crc16 (frameBody nad pcb inf)).toNat
        then complete .ok (frameBody nad pcb inf) s else raise .errProtoCrc s) := by
  have hlegal := checkFrameDecode_of_shaped (frameShaped_frameBody_append nad pcb hi lo h)
  rw [exec_frameDecode, execFrameDecode_of_legal hlegal, frameLen_frameBody_append nad pcb h, take_frameBody_append]
  simp only [verifyFrame_frameBody_append nad pcb hi lo h]

/-! ## The obligations -/

/-- Settles O21: a body with two bytes behind it has the right shape, and the CRC test reads exactly those two; every other
operand fails one of the checks. -/
theorem frameDecodeAcceptsExactlyTheRightCrc : Obligations.FrameDecodeAcceptsExactlyTheRightCrc := by
  unfold Obligations.FrameDecodeAcceptsExactlyTheRightCrc
  constructor
  case left =>
    intro s nad pcb hi lo inf hinf
    rw [← frameBody_eq, exec_frameDecode_frameBody_append nad pcb hi lo hinf]
    split_ifs
    · rw [complete]
    · rw [raise, complete]
  case right =>
    intro s arg data hbad
    have hrefused : arg ≠ 0#8 ∨ ¬ frameShaped data := hbad.imp_right fun hdata => by
      rw [frameShaped, frameLen]
      omega
    rw [exec_frameDecode, execFrameDecode_of_refused (checkFrameDecode_of_refused hrefused), raise, complete]

/-- Settles O20: the length of the DATA decides the check, and the frame built is its body with the two CRC bytes. -/
theorem frameEncodeAnswersTheFrame : Obligations.FrameEncodeAnswersTheFrame := by
  unfold Obligations.FrameEncodeAnswersTheFrame
  intro s pcb inf
  rw [← frameBody_eq]
  constructor
  case left =>
    intro hinf
    refine ⟨crcHi (crc16 (frameBody 0x5A#8 pcb inf)), crcLo (crc16 (frameBody 0x5A#8 pcb inf)), ?_,
      crcHi_mul_add_crcLo _⟩
    rw [exec_frameEncode, execFrameEncode_of_legal (checkFrameEncode_of_length_le pcb hinf), buildFrame_eq, complete]
  case right =>
    intro hlong
    rw [exec_frameEncode, execFrameEncode_of_refused (checkFrameEncode_of_lt_length pcb hlong), raise, complete]

end Sys2Proof.Machine
end

section
/-!
SUPPORT. The state-control and register-access family (45_control.md): the legality checks of its commands (R103), the register
images as the numbers of R45, the writable registers (R294), how a frame comes from the port to its command (R101), and the
obligations over CLEAR_SEQ, END_EXCHANGE, RDREG, WRREG, READ_BUF and the illegal commands.
-/

namespace Sys2Proof.Machine

/-! ## A command behind its legality check -/

@[simp] theorem checkedThen_none (s t : State) : checkedThen none s t = t := rfl

@[simp] theorem checkedThen_some (e : Status) (s t : State) : checkedThen (some e) s t = raise e s := rfl

/-- An error completion adds its response and leaves the rest of the state alone (R324). -/
theorem raise_eq (e : Status) (s : State) : raise e s = { s with out := s.out ++ [⟨e, []⟩] } := rfl

theorem exec_clearSeq (arg : Byte) (data : List Byte) (s : State) :
    exec (.clearSeq arg data) s =
      .next (checkedThen (checkPlain arg data) s (complete .ok [] { s with ns := false, nr := false })) := rfl

theorem exec_endExchange (arg : Byte) (data : List Byte) (s : State) :
    exec (.endExchange arg data) s =
      .next (checkedThen (checkPlain arg data) s (complete .ok [] { s with
        txbuf := zeros Config.frameBytes, txlen := 0, rxbuf := zeros Config.frameBytes, rxlen := 0, latch := false })) :=
  rfl

theorem exec_rdreg (reg : Byte) (data : List Byte) (s : State) :
    exec (.rdreg reg data) s = .next (checkedThen (checkRdreg reg data) s (complete .ok (toBe32 (readReg reg s)) s)) := rfl

theorem exec_wrreg (reg : Byte) (data : List Byte) (s : State) :
    exec (.wrreg reg data) s =
      .next (checkedThen (checkWrreg reg data) s (complete .ok [] (writeReg reg (wrregValue data) s))) := rfl

theorem exec_readBuf (arg : Byte) (data : List Byte) (s : State) :
    exec (.readBuf arg data) s = .next (checkedThen (checkReadBuf arg data) s
      (complete .ok (if arg = 0#8 then txFrame s else if arg = 1#8 then rxFrame s else atrBytes s) s)) := rfl

theorem exec_illegal (opc arg : Byte) (data : List Byte) (s : State) :
    exec (.illegal opc arg data) s = .next (raise .errIllegalCmd s) := rfl

/-! ## The legality checks (R103) -/

/-- A command that takes no DATA refuses any (R103 step 4). -/
theorem argThenLen_zero_zero_of_ne_nil {data : List Byte} (h : data ≠ []) (reserved arg : Byte) :
    argThenLen reserved 0 0 arg data = some .errParam :=
  argThenLen_of_length (.inr (List.length_pos_iff.2 h)) reserved arg

/-- With no ARG bit reserved, a command that takes no DATA passes without one. -/
theorem argThenLen_none_reserved_nil (arg : Byte) : argThenLen 0#8 0 0 arg [] = none := by
  rw [argThenLen_none_reserved]
  exact argThenLen_zero_of_length le_rfl le_rfl _

/-- A plain command passes with ARG = 0 and no DATA, and has one error for everything else. -/
theorem checkPlain_eq_ite (arg : Byte) (data : List Byte) :
    checkPlain arg data = if arg = 0#8 ∧ data = [] then none else some .errParam := by
  rw [checkPlain]
  split_ifs with hplain
  · obtain ⟨rfl, rfl⟩ := hplain
    exact argThenLen_zero_of_length le_rfl le_rfl _
  · rcases not_and_or.1 hplain with harg | hdata
    · exact argThenLen_of_arg_ne_zero harg _ _ _
    · exact argThenLen_zero_zero_of_ne_nil hdata _ _

theorem checkRdreg_of_lt {reg : Byte} (h : 0x0B < reg.toNat) (data : List Byte) :
    checkRdreg reg data = some .errReg := if_pos h

theorem checkRdreg_of_le {reg : Byte} (h : reg.toNat ≤ 0x0B) (data : List Byte) :
    checkRdreg reg data = argThenLen 0#8 0 0 reg data := if_neg h.not_gt

theorem checkReadBuf_of_lt {arg : Byte} (h : 2 < arg.toNat) (data : List Byte) :
    checkReadBuf arg data = some .errParam := if_pos h

theorem checkReadBuf_of_le {arg : Byte} (h : arg.toNat ≤ 2) (data : List Byte) :
    checkReadBuf arg data = argThenLen 0#8 0 0 arg data := if_neg h.not_gt

theorem checkReadBuf_nil_of_le {arg : Byte} (h : arg.toNat ≤ 2) : checkReadBuf arg [] = none := by
  rw [checkReadBuf_of_le h, argThenLen_none_reserved_nil]

/-- READ_BUF has one error for its operands, whichever of its checks fails first. -/
theorem checkReadBuf_of_refused {arg : Byte} {data : List Byte} (h : 2 < arg.toNat ∨ data ≠ []) :
    checkReadBuf arg data = some .errParam := by
  rcases lt_or_ge 2 arg.toNat with harg | harg
  · exact checkReadBuf_of_lt harg data
  · rw [checkReadBuf_of_le harg]
    exact argThenLen_zero_zero_of_ne_nil (h.resolve_left harg.not_gt) _ _

theorem checkWrreg_of_not_mem {reg : Byte} (h : reg ∉ writableRegs) (data : List Byte) :
    checkWrreg reg data = some .errReg := by
  rw [checkWrreg, List.contains_eq_mem, decide_eq_false h]
  rfl

/-- For a writable register the DLEN is looked at next, then the value as a number (R103 steps 4 and 5). -/
theorem checkWrreg_of_mem {reg : Byte} (h : reg ∈ writableRegs) (data : List Byte) :
    checkWrreg reg data =
      if data.length = 4 ∧ legalRegValue reg (natOfBytes data) = true then none else some .errParam := by
  rw [checkWrreg, List.contains_eq_mem, decide_eq_true h, illegalValue_eq_not_legalRegValue h]
  by_cases hlen : data.length = 4
  · rw [argThenLen_none_reserved, argThenLen_zero_of_length hlen.ge hlen.le]
    cases legalRegValue reg (natOfBytes data) <;> simp [hlen]
  · rw [argThenLen_of_length (by omega)]
    simp [hlen]

/-! ## The register images as numbers (R45) -/

/-- Bit fields side by side are a number in positional form. -/
theorem toNat_append_eq_mul_add {m n : Nat} (x : BitVec m) (y : BitVec n) :
    (x ++ y).toNat = x.toNat * 2 ^ n + y.toNat := by
  rw [BitVec.toNat_append, ← Nat.shiftLeft_add_eq_or_of_lt y.isLt, Nat.shiftLeft_eq]

theorem seqImage_eq_ofNat (s : State) :
    seqImage s = BitVec.ofNat 32 (s.ns.toNat + 2 * s.nr.toNat + 4 * s.latch.toNat) := by
  rw [seqImage]
  cases s.ns <;> cases s.nr <;> cases s.latch <;> rfl

theorem lastRxImage_eq_ofNat (s : State) :
    lastRxImage s =
      BitVec.ofNat 32 (s.lastRx.nad.toNat * 65536 + s.lastRx.pcb.toNat * 256 + s.lastRx.len.toNat) := by
  apply BitVec.eq_of_toNat_eq
  simp only [lastRxImage, toNat_append_eq_mul_add, BitVec.toNat_ofNat]
  omega

theorem flagsImage_eq_ofNat (s : State) : flagsImage s = BitVec.ofNat 32 s.nadMismatch.toNat := by
  rw [flagsImage]
  cases s.nadMismatch <;> rfl

theorem paramsImage_eq_ofNat (p : Params) :
    paramsImage p =
      BitVec.ofNat 32 ((if p.latchClear = .perExchange then 1 else 0) + (if p.wtxCache = .overwrite then 2 else 0)) := by
  obtain ⟨latchClear, wtxCache⟩ := p
  cases latchClear <;> cases wtxCache <;> rfl

/-- The registers that RDREG names (R45). -/
def readableRegs : List Byte :=
  [0x00#8, 0x01#8, 0x02#8, 0x03#8, 0x04#8, 0x05#8, 0x06#8, 0x07#8, 0x08#8, 0x09#8, 0x0A#8, 0x0B#8]

theorem mem_readableRegs_iff (reg : Byte) : reg ∈ readableRegs ↔ reg.toNat ≤ 0x0B := by
  revert reg
  decide

/-- Register by register, the model's word is the spec's number. -/
theorem regValue_map_ofNat {reg : Byte} (h : reg.toNat ≤ 0x0B) (s : State) :
    (regValue reg s).map (BitVec.ofNat 32) = some (readReg reg s) := by
  have hmem := (mem_readableRegs_iff reg).2 h
  simp only [readableRegs, List.mem_cons, List.not_mem_nil, or_false] at hmem
  rcases hmem with rfl | rfl | rfl | rfl | rfl | rfl | rfl | rfl | rfl | rfl | rfl | rfl
  · exact congrArg some (seqImage_eq_ofNat s).symm
  · exact congrArg some (BitVec.ofNat_toNat 32 s.segtUs)
  · exact congrArg some (BitVec.ofNat_toNat 32 s.mpotUs)
  · exact congrArg some (BitVec.ofNat_toNat 32 s.bwtMs)
  · rfl
  · exact congrArg some (BitVec.ofNat_toNat 32 s.i2cAddr)
  · rfl
  · rfl
  · exact congrArg some (lastRxImage_eq_ofNat s).symm
  · exact congrArg some (flagsImage_eq_ofNat s).symm
  · rfl
  · exact congrArg some (paramsImage_eq_ofNat s.params).symm

theorem regValue_of_lt {reg : Byte} (h : 0x0B < reg.toNat) (s : State) : regValue reg s = none := by
  obtain ⟨k, hk⟩ := Nat.exists_eq_add_of_le' h
  rw [regValue, hk]
  rfl

theorem regValue_isSome (reg : Byte) (s : State) : (regValue reg s).isSome = decide (reg.toNat ≤ 0x0B) := by
  rcases le_or_gt reg.toNat 0x0B with hle | hlt
  · rw [decide_eq_true hle, ← Option.isSome_map, regValue_map_ofNat hle, Option.isSome_some]
  · rw [decide_eq_false hlt.not_ge, regValue_of_lt hlt, Option.isSome_none]

/-- Only a readable register has a value, and RDREG's word is that number. -/
theorem readReg_of_regValue {reg : Byte} {s : State} {n : Nat} (h : regValue reg s = some n) :
    reg.toNat ≤ 0x0B ∧ readReg reg s = BitVec.ofNat 32 n := by
  have hle : reg.toNat ≤ 0x0B := by
    have hsome := regValue_isSome reg s
    rw [h] at hsome
    exact of_decide_eq_true hsome.symm
  have hword := regValue_map_ofNat hle s
  rw [h] at hword
  exact ⟨hle, (Option.some.inj hword).symm⟩

/-- A 32-bit value's bytes on the host port, for a number of any size (R76). -/
theorem toBe32_ofNat (n : Nat) :
    toBe32 (BitVec.ofNat 32 n) =
      [BitVec.ofNat 8 (n / 16777216), BitVec.ofNat 8 (n / 65536), BitVec.ofNat 8 (n / 256), BitVec.ofNat 8 n] := by
  have hbyte (k : Nat) (hk : k + 8 ≤ 32) :
      (BitVec.ofNat 32 n).extractLsb' k 8 = BitVec.ofNat 8 (n / 2 ^ k) := by
    apply BitVec.eq_of_getLsbD_eq
    intro i hi
    have hin : k + i < 32 := by omega
    rw [BitVec.getLsbD_extractLsb', BitVec.getLsbD_ofNat, BitVec.getLsbD_ofNat, Nat.testBit_div_two_pow, Nat.add_comm i]
    simp [hi, hin]
  rw [toBe32, hbyte 24 (by decide), hbyte 16 (by decide), hbyte 8 (by decide), hbyte 0 (by decide), Nat.pow_zero,
    Nat.div_one]
  rfl

/-! ## The writable registers (R294) -/

theorem legalRegValue_segtUs_iff (v : Nat) : legalRegValue 1#8 v = true ↔ v ≤ 65535 := decide_eq_true_iff

theorem legalRegValue_mpotUs_iff (v : Nat) : legalRegValue 2#8 v = true ↔ 1 ≤ v ∧ v ≤ 65535 := decide_eq_true_iff

theorem legalRegValue_bwtMs_iff (v : Nat) : legalRegValue 3#8 v = true ↔ 1 ≤ v ∧ v ≤ 65535 := decide_eq_true_iff

theorem legalRegValue_i2cAddr_iff (v : Nat) : legalRegValue 5#8 v = true ↔ v ≤ 127 := decide_eq_true_iff

/-- The three 16-bit registers share their upper bound (R38 to R40). -/
theorem legalRegValue_ne_true_of_gt {reg : Byte} (hreg : reg ∈ [1#8, 2#8, 3#8]) {v : Nat} (h : 65535 < v) :
    legalRegValue reg v ≠ true := by
  simp only [List.mem_cons, List.not_mem_nil, or_false] at hreg
  rcases hreg with rfl | rfl | rfl
  · exact mt (legalRegValue_segtUs_iff v).1 h.not_ge
  · exact mt (legalRegValue_mpotUs_iff v).1 fun ⟨_, hle⟩ => h.not_ge hle
  · exact mt (legalRegValue_bwtMs_iff v).1 fun ⟨_, hle⟩ => h.not_ge hle

/-- A legal value goes into the register, and the command completes. -/
theorem exec_wrreg_of_legal {reg : Byte} {data : List Byte} (hreg : reg ∈ writableRegs) (hlen : data.length = 4)
    (hlegal : legalRegValue reg (natOfBytes data) = true) (s : State) :
    exec (.wrreg reg data) s = .next (complete .ok [] (writeReg reg (wrregValue data) s)) := by
  rw [exec_wrreg, checkWrreg_of_mem hreg, if_pos ⟨hlen, hlegal⟩, checkedThen_none]

theorem exec_wrreg_of_illegal {reg : Byte} {data : List Byte} (hreg : reg ∈ writableRegs)
    (hbad : data.length ≠ 4 ∨ legalRegValue reg (natOfBytes data) ≠ true) (s : State) :
    exec (.wrreg reg data) s = .next { s with out := s.out ++ [⟨.errParam, []⟩] } := by
  rw [exec_wrreg, checkWrreg_of_mem hreg, if_neg (not_and_or.2 hbad), checkedThen_some, raise_eq]

theorem exec_wrreg_of_not_writable {reg : Byte} (hreg : reg ∉ writableRegs) (data : List Byte) (s : State) :
    exec (.wrreg reg data) s = .next { s with out := s.out ++ [⟨.errReg, []⟩] } := by
  rw [exec_wrreg, checkWrreg_of_not_mem hreg, checkedThen_some, raise_eq]

theorem wrregValue_eq_ofNat (data : List Byte) : wrregValue data = BitVec.ofNat 32 (natOfBytes data) := by
  rw [← toNat_wrregValue, BitVec.ofNat_toNat, BitVec.setWidth_eq]

/-- The value cut down to the width of a register. -/
theorem setWidth_wrregValue {w : Nat} (hw : w ≤ 32) (data : List Byte) :
    (wrregValue data).setWidth w = BitVec.ofNat w (natOfBytes data) := by
  rw [wrregValue_eq_ofNat, BitVec.setWidth_ofNat_of_le hw]

theorem wrregValue_getLsbD_zero (data : List Byte) :
    (wrregValue data).getLsbD 0 = decide (natOfBytes data % 2 = 1) := by
  rw [← toNat_wrregValue, BitVec.getLsbD, Nat.testBit_zero]

theorem writeReg_segtUs (data : List Byte) (s : State) :
    writeReg 1#8 (wrregValue data) s = { s with segtUs := BitVec.ofNat 16 (natOfBytes data) } := by
  rw [← setWidth_wrregValue (by decide)]
  rfl

theorem writeReg_mpotUs (data : List Byte) (s : State) :
    writeReg 2#8 (wrregValue data) s = { s with mpotUs := BitVec.ofNat 16 (natOfBytes data) } := by
  rw [← setWidth_wrregValue (by decide)]
  rfl

theorem writeReg_bwtMs (data : List Byte) (s : State) :
    writeReg 3#8 (wrregValue data) s = { s with bwtMs := BitVec.ofNat 16 (natOfBytes data) } := by
  rw [← setWidth_wrregValue (by decide)]
  rfl

theorem writeReg_i2cAddr (data : List Byte) (s : State) :
    writeReg 5#8 (wrregValue data) s = { s with i2cAddr := BitVec.ofNat 7 (natOfBytes data) } := by
  rw [← setWidth_wrregValue (by decide)]
  rfl

/-- FLAGS is write-1-to-clear: a 0 in bit 0 leaves NAD_MISMATCH as it is (R44). -/
theorem writeReg_flags (data : List Byte) (s : State) :
    writeReg 9#8 (wrregValue data) s =
      { s with nadMismatch := if natOfBytes data % 2 = 1 then false else s.nadMismatch } := by
  have hw : writeReg 9#8 (wrregValue data) s =
      if (wrregValue data).getLsbD 0 then { s with nadMismatch := false } else s := rfl
  rw [hw, wrregValue_getLsbD_zero]
  by_cases hbit : natOfBytes data % 2 = 1 <;> simp [hbit]

/-! ## From the port to the command (R101) -/

/-- The first frame of a stream is its header and as many bytes as DLEN says, whatever the opcode. -/
theorem decodeCommand_frame (opc arg hi lo : Byte) {data : List Byte} (hlen : data.length = be16 hi lo)
    (rest : List Byte) :
    decodeCommand (opc :: arg :: hi :: lo :: (data ++ rest)) = .ok (ofOpcode opc arg data, rest) := by
  have hwhole : ¬ (data ++ rest).length < be16 hi lo := by
    rw [List.length_append]
    omega
  rw [decodeCommand, if_neg hwhole, List.take_left' hlen, List.drop_left' hlen]

theorem ofOpcode_of_not_mem {opc : Byte} (h : opc ∉ definedOpcodes) (arg : Byte) (data : List Byte) :
    ofOpcode opc arg data = .illegal opc arg data := by
  simp only [definedOpcodes, List.mem_cons, List.not_mem_nil, or_false, not_or] at h
  simp only [ofOpcode, h, if_false]

/-- Outside reset and outside a receive, a step takes the frame from the port and runs its command (R100). -/
theorem step_of_decodeCommand {s : State} {i : Instr} {rest : List Byte} (hpin : s.resetPin = false)
    (hrecv : s.receiving = none) (hport : decodeCommand s.port = .ok (i, rest)) :
    step s = exec i { s with port := rest } := by
  simp only [step, hpin, hrecv, hport, Bool.false_eq_true, if_false]

/-! ## The obligations -/

/-- Settles O56: the check decides between the response and the error, and the register's word is its number. -/
theorem rdregReadsEveryRegister : Obligations.RdregReadsEveryRegister := by
  unfold Obligations.RdregReadsEveryRegister
  intro s reg
  refine ⟨?value, regValue_isSome reg s, ?noRegister, ?noData⟩
  case value =>
    intro n hn
    obtain ⟨hle, hword⟩ := readReg_of_regValue hn
    rw [exec_rdreg, checkRdreg_of_le hle, argThenLen_none_reserved_nil, checkedThen_none, hword, toBe32_ofNat, complete]
  case noRegister =>
    intro data hlt
    rw [exec_rdreg, checkRdreg_of_lt hlt, checkedThen_some, raise_eq]
  case noData =>
    intro data hle hdata
    rw [exec_rdreg, checkRdreg_of_le hle, argThenLen_zero_zero_of_ne_nil hdata, checkedThen_some, raise_eq]

/-- Settles O57: the legal values of each register are the ones the check lets through, and `writeReg` writes that register. -/
theorem wrregWritesEveryWritableRegister : Obligations.WrregWritesEveryWritableRegister := by
  unfold Obligations.WrregWritesEveryWritableRegister
  intro s b0 b1 b2 b3
  refine ⟨?segtUs, ?mpotUs, ?bwtMs, ?i2cAddr, ?flags, ?above16, ?zero, ?above7, ?notWritable, ?dlen⟩
  case segtUs =>
    intro hle
    rw [exec_wrreg_of_legal (by decide) rfl ((legalRegValue_segtUs_iff _).2 hle), writeReg_segtUs, complete]
  case mpotUs =>
    intro hge hle
    rw [exec_wrreg_of_legal (by decide) rfl ((legalRegValue_mpotUs_iff _).2 ⟨hge, hle⟩), writeReg_mpotUs, complete]
  case bwtMs =>
    intro hge hle
    rw [exec_wrreg_of_legal (by decide) rfl ((legalRegValue_bwtMs_iff _).2 ⟨hge, hle⟩), writeReg_bwtMs, complete]
  case i2cAddr =>
    intro hle
    rw [exec_wrreg_of_legal (by decide) rfl ((legalRegValue_i2cAddr_iff _).2 hle), writeReg_i2cAddr, complete]
  case flags => rw [exec_wrreg_of_legal (by decide) rfl rfl, writeReg_flags, complete]
  case above16 =>
    intro hgt reg hreg
    have hwritable : reg ∈ writableRegs := List.mem_append_left [5#8, 9#8] hreg
    exact exec_wrreg_of_illegal hwritable (.inr (legalRegValue_ne_true_of_gt hreg hgt)) s
  case zero =>
    intro reg hreg
    have hrefused : reg ∈ writableRegs ∧ legalRegValue reg (natOfBytes [0#8, 0#8, 0#8, 0#8]) ≠ true := by
      revert reg
      decide
    obtain ⟨hwritable, hillegal⟩ := hrefused
    exact exec_wrreg_of_illegal hwritable (.inr hillegal) s
  case above7 =>
    intro hgt
    exact exec_wrreg_of_illegal (by decide) (.inr (mt (legalRegValue_i2cAddr_iff _).1 hgt.not_ge)) s
  case notWritable =>
    intro reg data hreg
    exact exec_wrreg_of_not_writable hreg data s
  case dlen =>
    intro reg data hreg hlen
    exact exec_wrreg_of_illegal hreg (.inl hlen) s

/-- Settles O54: the check decides between the cleared state and the error. -/
theorem clearSeqClearsTheSequenceNumbers : Obligations.ClearSeqClearsTheSequenceNumbers := by
  unfold Obligations.ClearSeqClearsTheSequenceNumbers
  intro s arg data
  rw [exec_clearSeq, checkPlain_eq_ite]
  split_ifs
  · rw [checkedThen_none, complete]
  · rw [checkedThen_some, raise_eq]

/-- Settles O55: the check decides between the cleared state and the error. -/
theorem endExchangeClearsTheExchange : Obligations.EndExchangeClearsTheExchange := by
  unfold Obligations.EndExchangeClearsTheExchange
  intro s arg data
  rw [exec_endExchange, checkPlain_eq_ite]
  split_ifs
  · rw [checkedThen_none, complete, zeros_frameBytes]
  · rw [checkedThen_some, raise_eq]

/-- Settles O59: ARG picks the buffer, and the check refuses every other ARG and every DATA. -/
theorem readBufReadsEachBuffer : Obligations.ReadBufReadsEachBuffer := by
  unfold Obligations.ReadBufReadsEachBuffer
  intro s
  refine ⟨?txbuf, ?rxbuf, ?atrbuf, ?refused⟩
  case txbuf => rw [exec_readBuf, checkReadBuf_nil_of_le (by decide), checkedThen_none, if_pos rfl, complete, txFrame]
  case rxbuf =>
    rw [exec_readBuf, checkReadBuf_nil_of_le (by decide), checkedThen_none, if_neg (by decide), if_pos rfl, complete,
      rxFrame]
  case atrbuf =>
    rw [exec_readBuf, checkReadBuf_nil_of_le (by decide), checkedThen_none, if_neg (by decide), if_neg (by decide),
      complete, atrBytes]
  case refused =>
    intro arg data hbad
    rw [exec_readBuf, checkReadBuf_of_refused hbad, checkedThen_some, raise_eq]

/-- Settles O60: DLEN says where the frame ends before the opcode is looked at, and an undefined opcode is ILLEGAL. -/
theorem illegalFramesAreConsumedWhole : Obligations.IllegalFramesAreConsumedWhole := by
  unfold Obligations.IllegalFramesAreConsumedWhole
  constructor
  case left =>
    intro s opc arg hi lo data rest hpin hrecv hopc hlen hport
    have hframe : decodeCommand s.port = .ok (.illegal opc arg data, rest) := by
      rw [hport, decodeCommand_frame opc arg hi lo hlen, ofOpcode_of_not_mem hopc]
    rw [step_of_decodeCommand hpin hrecv hframe, exec_illegal, raise_eq]
  case right =>
    intro s opc arg data
    rw [exec_illegal, raise_eq]

end Sys2Proof.Machine
end

section
/-!
SUPPORT. The encoder and the decoder undo each other (30_encoding.md R101, R104, R110 to R116, R297): the command frames by
their header and DLEN, the block rows by their PCB byte, and the obligations over both.
-/

namespace Sys2Proof.Machine

/-! ## The command layer -/

/-- DLEN's two bytes read back as the number, as long as it has 16 bits (R101). -/
theorem be16_toBe16 {n : Nat} (h : n < 65536) : be16 (BitVec.ofNat 8 (n / 256)) (BitVec.ofNat 8 n) = n := by
  simp only [be16, BitVec.toNat_ofNat]
  omega

/-- Decoding a command frame gives the instruction of its opcode and leaves what follows. -/
theorem decodeCommand_commandFrame (opc arg : Byte) {data : List Byte} (h : dataFits data = true) (rest : List Byte) :
    decodeCommand (commandFrame opc arg data ++ rest) = .ok (ofOpcode opc arg data, rest) :=
  decodeCommand_frame opc arg _ _ (be16_toBe16 (of_decide_eq_true h)).symm rest

/-- Every well-formed command is the instruction that its frame's opcode stands for (R104, R297). -/
theorem exists_commandFrame {i : Instr} (hwf : i.wf = true) (hl : i.layer = .command) :
    ∃ opc arg data, encode i = commandFrame opc arg data ∧ ofOpcode opc arg data = i ∧ dataFits data = true := by
  cases i with
  | illegal opc arg data =>
    simp only [Instr.wf, Bool.and_eq_true] at hwf
    obtain ⟨hopc, hfits⟩ := hwf
    exact ⟨opc, arg, data, rfl, ofOpcode_of_not_mem (by simpa using hopc) arg data, hfits⟩
  | crcCalc arg data | frameEncode arg data | frameDecode arg data | sendI arg data | sendR arg data | sendS arg data
  | recv arg data | softReset arg data | hardReset arg data | clearSeq arg data | endExchange arg data | rdreg arg data
  | wrreg arg data | readBuf arg data => exact ⟨_, arg, data, rfl, rfl, hwf⟩
  | _ => cases hl

/-- The instruction of an opcode is a command that encodes to the frame of that opcode, well formed if the DATA fits. -/
theorem ofOpcode_spec (opc arg : Byte) (data : List Byte) :
    (ofOpcode opc arg data).wf = dataFits data ∧ (ofOpcode opc arg data).layer = .command ∧
      encode (ofOpcode opc arg data) = commandFrame opc arg data := by
  by_cases hopc : opc ∈ definedOpcodes
  · simp only [definedOpcodes, List.mem_cons, List.not_mem_nil, or_false] at hopc
    rcases hopc with rfl | rfl | rfl | rfl | rfl | rfl | rfl | rfl | rfl | rfl | rfl | rfl | rfl | rfl <;>
      exact ⟨rfl, rfl, rfl⟩
  · rw [ofOpcode_of_not_mem hopc]
    have hnot : definedOpcodes.contains opc = false := by simpa using hopc
    exact ⟨by rw [Instr.wf, hnot]; rfl, rfl, rfl⟩

/-- The two DLEN bytes are those of the number they make. -/
theorem toBe16_be16 (hi lo : Byte) : toBe16 (be16 hi lo) = [hi, lo] := by
  have hhi : BitVec.ofNat 8 (be16 hi lo / 256) = hi := by
    apply BitVec.eq_of_toNat_eq
    simp only [be16, BitVec.toNat_ofNat]
    omega
  have hlo : BitVec.ofNat 8 (be16 hi lo) = lo := by
    apply BitVec.eq_of_toNat_eq
    simp only [be16, BitVec.toNat_ofNat]
    omega
  rw [toBe16, hhi, hlo]

theorem be16_lt (hi lo : Byte) : be16 hi lo < 65536 := by
  simp only [be16]
  omega

/-- What a stream that decodes looks like: a header, the DATA that DLEN announces, and the rest (R101). -/
theorem decodeCommand_ok {bytes rest : List Byte} {i : Instr} (h : decodeCommand bytes = .ok (i, rest)) :
    ∃ opc arg data, bytes = commandFrame opc arg data ++ rest ∧ i = ofOpcode opc arg data ∧ dataFits data = true := by
  match bytes, h with
  | opc :: arg :: hi :: lo :: tail, h =>
    simp only [decodeCommand] at h
    split at h
    · cases h
    next hwhole =>
      cases h
      have hlen : (tail.take (be16 hi lo)).length = be16 hi lo := List.length_take_of_le (by omega)
      refine ⟨opc, arg, tail.take (be16 hi lo), ?_, rfl, ?_⟩
      · simp [commandFrame, hlen, toBe16_be16]
      · rw [dataFits, hlen]
        exact decide_eq_true (be16_lt hi lo)
  | [], h | [_], h | [_, _], h | [_, _, _], h => cases h

/-- A stream without a whole frame is rejected: less than a header, or less DATA than DLEN says (R101). -/
theorem decodeCommand_error {bytes : List Byte}
    (h : bytes.length < 4 ∨ bytes.length < 4 + (byteAt bytes 2).toNat * 256 + (byteAt bytes 3).toNat) :
    ∃ e, decodeCommand bytes = .error e := by
  match bytes, h with
  | opc :: arg :: hi :: lo :: tail, h =>
    have hshort : tail.length < be16 hi lo := by
      simp only [List.length_cons, byteAt_cons_succ, byteAt_cons_zero] at h
      rw [be16]
      omega
    exact ⟨.dataIncomplete, if_pos hshort⟩
  | [], _ | [_], _ | [_, _], _ | [_, _, _], _ => exact ⟨.headerIncomplete, rfl⟩

/-! ## The block layer -/

/-- Bit fields of a PCB taken apart and put together again (R110 to R116). -/
theorem decodeBlock_spec (pcb : Byte) :
    (decodeBlock pcb).wf = true ∧ (decodeBlock pcb).layer = .block ∧ encode (decodeBlock pcb) = [pcb] := by
  revert pcb
  decide

/-- The PCB that a row decodes from is the row's PCB. -/
theorem pcb_decodeBlock (pcb : Byte) : (decodeBlock pcb).pcb = pcb := by
  obtain ⟨-, -, henc⟩ := decodeBlock_spec pcb
  rw [Instr.pcb, henc, byteAt_cons_zero]

theorem decodeBlock_iBlockPcb : ∀ (ns m : Bool) (ignored : BitVec 5),
    decodeBlock (iBlockPcb ns m ignored) = .iBlock ns m ignored := by decide

theorem decodeBlock_rBlockPcb : ∀ (nr ignored5 : Bool) (ignored32 ee : BitVec 2),
    decodeBlock (rBlockPcb nr ignored5 ignored32 ee) = ofRBlock nr ignored5 ignored32 ee := by decide

theorem decodeBlock_sBlockPcb : ∀ (dir : Bool) (type : BitVec 5),
    decodeBlock (sBlockPcb dir type) = ofSBlock dir type := by decide

/-- A type the source does not name is of the unnamed row (R114, R116). -/
theorem ofSBlock_of_not_mem {type : BitVec 5} (h : type ∉ namedTypes) (dir : Bool) :
    ofSBlock dir type = .sUnnamed dir type := by
  simp only [namedTypes, List.mem_cons, List.not_mem_nil, or_false, not_or] at h
  simp only [ofSBlock, h, if_false]

theorem encode_eq_pcb {i : Instr} (hl : i.layer = .block) : encode i = [i.pcb] := by
  cases i with
  | crcCalc | frameEncode | frameDecode | sendI | sendR | sendS | recv | softReset | hardReset | clearSeq | endExchange
  | rdreg | wrreg | readBuf | illegal => cases hl
  | _ => rfl

theorem decodeBlock_pcb {i : Instr} (hwf : i.wf = true) (hl : i.layer = .block) : decodeBlock i.pcb = i := by
  cases i with
  | crcCalc | frameEncode | frameDecode | sendI | sendR | sendS | recv | softReset | hardReset | clearSeq | endExchange
  | rdreg | wrreg | readBuf | illegal => cases hl
  | iBlock ns m ignored => exact decodeBlock_iBlockPcb ns m ignored
  | rBlockNoError nr i5 i32 => exact decodeBlock_rBlockPcb nr i5 i32 0#2
  | rBlockCrcError nr i5 i32 => exact decodeBlock_rBlockPcb nr i5 i32 1#2
  | rBlockOtherError nr i5 i32 => exact decodeBlock_rBlockPcb nr i5 i32 2#2
  | rBlockUnnamedError nr i5 i32 => exact decodeBlock_rBlockPcb nr i5 i32 3#2
  | sUnnamed dir type =>
    have hunnamed : type ∉ namedTypes := by simpa [Instr.wf] using hwf
    exact (decodeBlock_sBlockPcb dir type).trans (ofSBlock_of_not_mem hunnamed dir)
  | _ => rfl

/-! ## The obligations -/

/-- Settles O1: a well-formed command is a frame whose DLEN is the length of its DATA, and its opcode stands for it. -/
theorem decodeEncodeCommand : Obligations.DecodeEncodeCommand := by
  unfold Obligations.DecodeEncodeCommand
  intro i rest hwf hl
  obtain ⟨opc, arg, data, henc, hof, hfits⟩ := exists_commandFrame hwf hl
  rw [henc, decodeCommand_commandFrame opc arg hfits, hof]

/-- Settles O3: the bytes taken are the frame of the instruction's opcode; a PCB is put together from the fields it was taken
apart into. -/
theorem decodedBytesAreTheEncoding : Obligations.DecodedBytesAreTheEncoding := by
  unfold Obligations.DecodedBytesAreTheEncoding
  refine ⟨?commands, decodeBlock_spec⟩
  case commands =>
    intro bytes rest i h
    obtain ⟨opc, arg, data, hbytes, rfl, hfits⟩ := decodeCommand_ok h
    obtain ⟨hwf, hl, henc⟩ := ofOpcode_spec opc arg data
    exact ⟨hwf.trans hfits, hl, by rw [henc, hbytes]⟩

/-- Settles O2. -/
theorem decodeEncodeBlock : Obligations.DecodeEncodeBlock := by
  unfold Obligations.DecodeEncodeBlock
  intro i hwf hl
  exact ⟨encode_eq_pcb hl, decodeBlock_pcb hwf hl⟩

/-- Settles O4: the decoder run on each of the words. -/
theorem sampleWordsDecode : Obligations.SampleWordsDecode := by
  unfold Obligations.SampleWordsDecode
  decide

/-- Settles O5. -/
theorem stepRunsTheDecodedCommand : Obligations.StepRunsTheDecodedCommand := by
  unfold Obligations.StepRunsTheDecodedCommand
  intro s i rest hpin hrecv hport _
  exact step_of_decodeCommand hpin hrecv hport

/-- In a receive, a step whose block is read runs the row of its PCB. -/
theorem step_of_readBlock {s s1 : State} {rc : Receive} (hpin : s.resetPin = false) (hrecv : s.receiving = some rc)
    (hread : readBlock s = (.ok, s1)) : step s = exec (decodeBlock (byteAt s1.rxbuf 1)) s1 := by
  simp only [step, hpin, hrecv, hread, Bool.false_eq_true, if_false, receivedPcb]

/-- Settles O6. -/
theorem stepRunsTheReceivedBlock : Obligations.StepRunsTheReceivedBlock := by
  unfold Obligations.StepRunsTheReceivedBlock
  intro s s1 rc hpin hrecv hread
  exact step_of_readBlock hpin hrecv hread

/-- Settles O7: the decoder rejects what is on the port, and the step then waits. -/
theorem stepWaitsForAWholeFrame : Obligations.StepWaitsForAWholeFrame := by
  unfold Obligations.StepWaitsForAWholeFrame
  intro s hpin hrecv hshort
  obtain ⟨e, he⟩ := decodeCommand_error hshort
  simp only [step, hpin, hrecv, he, Bool.false_eq_true, if_false]

end Sys2Proof.Machine
end

section
/-!
SUPPORT. The CRC register as a linear map (41_crc.md R150): its table form, its injectivity in the register and in the byte,
and with them the residue of a frame (R154), the round trip of a frame (R178), the rejection of a changed byte (R177, R182) and
the parsing of a PCB (R173).
-/

namespace Sys2Proof.Machine

/-! ## The CRC register -/

/-- One iteration as a shift and a feedback term (R150). -/
theorem crcBit_eq_xor (c : Crc) : crcBit c = (c >>> 1) ^^^ (if c.getLsbD 0 then 0x8408#16 else 0#16) := by
  rw [crcBit]
  split
  · rfl
  · rw [BitVec.xor_zero]

theorem crcBit_of_even {c : Crc} (h : c.getLsbD 0 = false) : crcBit c = c >>> 1 := by
  rw [crcBit, h, if_neg Bool.false_ne_true]

theorem crcBit_xor (a b : Crc) : crcBit (a ^^^ b) = crcBit a ^^^ crcBit b := by
  have hfeed (x y : Bool) : (if (x ^^ y) then 0x8408#16 else 0#16) =
      (if x then 0x8408#16 else 0#16) ^^^ (if y then 0x8408#16 else 0#16) := by
    cases x <;> cases y <;> rfl
  simp only [crcBit_eq_xor, BitVec.ushiftRight_xor_distrib, BitVec.getLsbD_xor, hfeed]
  ac_rfl

/-- The feedback goes into the top bit, which the shift has left clear. -/
theorem getLsbD_crcBit_top (c : Crc) : (crcBit c).getLsbD 15 = c.getLsbD 0 := by
  rw [crcBit_eq_xor, BitVec.getLsbD_xor, BitVec.getLsbD_ushiftRight, BitVec.getLsbD_of_ge c _ (by decide), Bool.false_xor]
  cases c.getLsbD 0 <;> rfl

/-- An iteration loses nothing: the bit shifted out is the top bit of the result. -/
theorem crcBit_injective : Function.Injective crcBit := by
  intro a b h
  have hlow : a.getLsbD 0 = b.getLsbD 0 := by rw [← getLsbD_crcBit_top, h, getLsbD_crcBit_top]
  rw [crcBit_eq_xor, crcBit_eq_xor, hlow] at h
  have hshift : a >>> 1 = b >>> 1 := (BitVec.xor_left_inj _).1 h
  apply BitVec.eq_of_getLsbD_eq
  intro i hi
  cases i with
  | zero => exact hlow
  | succ k =>
    have hk := congrArg (fun v : Crc => v.getLsbD k) hshift
    simpa [BitVec.getLsbD_ushiftRight, Nat.add_comm 1 k] using hk

/-- The eight iterations of one byte (R150). -/
def crcShift (c : Crc) : Crc := crcBit (crcBit (crcBit (crcBit (crcBit (crcBit (crcBit (crcBit c)))))))

theorem crcByte_eq_crcShift (c : Crc) (b : Byte) : crcByte c b = crcShift (c ^^^ b.setWidth 16) := rfl

theorem crcShift_xor (a b : Crc) : crcShift (a ^^^ b) = crcShift a ^^^ crcShift b := by
  simp only [crcShift, crcBit_xor]

theorem crcShift_injective : Function.Injective crcShift := by
  intro a b h
  simp only [crcShift] at h
  iterate 8 replace h := crcBit_injective h
  exact h

/-- With eight zero bits in front of it, a value is only shifted. -/
theorem crcShift_of_low_zero {c : Crc} (h : ∀ i < 8, c.getLsbD i = false) : crcShift c = c >>> 8 := by
  have hbit (k : Nat) (hk : k < 8) : crcBit (c >>> k) = c >>> (k + 1) := by
    rw [crcBit_of_even (by rw [BitVec.getLsbD_ushiftRight]; exact h k hk), BitVec.shiftRight_add]
  calc crcShift c
      = crcShift (c >>> 0) := by rw [BitVec.ushiftRight_zero]
    _ = c >>> 8 := by
      rw [crcShift, hbit 0 (by decide), hbit 1 (by decide), hbit 2 (by decide), hbit 3 (by decide), hbit 4 (by decide),
        hbit 5 (by decide), hbit 6 (by decide), hbit 7 (by decide)]

/-- The table form of a byte's update: the high byte of the register moves down, the low byte and the new byte choose what is
XORed to it. -/
theorem crcByte_eq_table (c : Crc) (b : Byte) :
    crcByte c b = (c >>> 8) ^^^ crcShift ((c.extractLsb' 0 8 ^^^ b).setWidth 16) := by
  have hsplit : c ^^^ b.setWidth 16 = ((c >>> 8) <<< 8) ^^^ (c.extractLsb' 0 8 ^^^ b).setWidth 16 := by
    apply BitVec.eq_of_getLsbD_eq
    intro i hi
    by_cases h8 : i < 8
    · simp [h8, hi]
    · simp [h8, hi, show 8 + (i - 8) = i by omega]
  have hhigh : crcShift ((c >>> 8) <<< 8) = c >>> 8 := by
    rw [crcShift_of_low_zero (by intro i hi; simp [hi])]
    apply BitVec.eq_of_getLsbD_eq
    intro i hi
    by_cases h8 : 8 + i < 16
    · simp [h8]
    · simp [h8, BitVec.getLsbD_of_ge c (8 + i) (by omega)]
  rw [crcByte_eq_crcShift, hsplit, crcShift_xor, hhigh]

theorem crcByte_register_injective (b : Byte) : Function.Injective (fun c => crcByte c b) :=
  fun _ _ h => (BitVec.xor_left_inj _).1 (crcShift_injective h)

theorem crcByte_byte_injective (c : Crc) : Function.Injective (crcByte c) := by
  intro a b h
  have hwide : a.setWidth 16 = b.setWidth 16 := (BitVec.xor_right_inj _).1 (crcShift_injective h)
  have hback := congrArg (BitVec.setWidth 8) hwide
  simpa using hback

/-- The same bytes keep two different registers different. -/
theorem foldl_crcByte_injective (s : List Byte) : Function.Injective (fun c => s.foldl crcByte c) := by
  induction s with
  | nil => exact fun _ _ h => h
  | cons b s ih => exact fun _ _ h => crcByte_register_injective b (ih h)

theorem crcHi_swapBytes (c : Crc) : crcHi (swapBytes c) = c.extractLsb' 0 8 := by
  rw [crcHi, swapBytes, BitVec.extractLsb'_append_eq_left]

theorem crcLo_swapBytes (c : Crc) : crcLo (swapBytes c) = c.extractLsb' 8 8 := by
  rw [crcLo, swapBytes, BitVec.extractLsb'_append_eq_right]

theorem swapBytes_injective : Function.Injective swapBytes := by
  intro a b h
  have hhi : crcHi a = crcHi b := by rw [crcHi, ← crcLo_swapBytes, h, crcLo_swapBytes, crcHi]
  have hlo : crcLo a = crcLo b := by rw [crcLo, ← crcHi_swapBytes, h, crcHi_swapBytes, crcLo]
  apply BitVec.eq_of_toNat_eq
  rw [← crcHi_mul_add_crcLo a, ← crcHi_mul_add_crcLo b, hhi, hlo]

/-- Changing one byte of a sequence changes its CRC (R150). -/
theorem crc16_set_ne {s : List Byte} {i : Nat} {b : Byte} (hi : i < s.length) (hb : b ≠ byteAt s i) :
    crc16 (s.set i b) ≠ crc16 s := by
  have hget : byteAt s i = s[i] := by simp [byteAt, hi]
  intro h
  have hreg : (s.set i b).foldl crcByte 0xFFFF#16 = s.foldl crcByte 0xFFFF#16 := by
    have := congrArg (· ^^^ 0xFFFF#16) (swapBytes_injective h)
    simpa only [crcUnswapped_xor_ones] using this
  rw [List.set_eq_take_append_cons_drop, if_pos hi] at hreg
  conv at hreg => rhs; rw [← List.take_append_drop i s, List.drop_eq_getElem_cons hi]
  simp only [List.foldl_append, List.foldl_cons] at hreg
  exact hb ((crcByte_byte_injective _ (foldl_crcByte_injective _ hreg)).trans hget.symm)

/-! ## The residue (R154) -/

/-- The complement of a byte of the register cancels that byte to all ones. -/
theorem extractLsb'_xor_ones_xor (u : Crc) {k : Nat} (hk : k + 8 ≤ 16) :
    (u ^^^ 0xFFFF#16).extractLsb' k 8 ^^^ u.extractLsb' k 8 = 0xFF#8 := by
  apply BitVec.eq_of_getLsbD_eq
  intro i hi
  have hones : (0xFFFF#16).getLsbD (k + i) = true := by
    rw [show 0xFFFF#16 = BitVec.allOnes 16 from rfl, BitVec.getLsbD_allOnes, decide_eq_true (by omega)]
  have hones' : (0xFF#8).getLsbD i = true := by
    rw [show 0xFF#8 = BitVec.allOnes 8 from rfl, BitVec.getLsbD_allOnes, decide_eq_true hi]
  simp only [BitVec.getLsbD_xor, BitVec.getLsbD_extractLsb', hi, decide_true, Bool.true_and, hones, hones']
  cases u.getLsbD (k + i) <;> rfl

theorem extractLsb'_zero_ushiftRight_eight (c : Crc) : (c >>> 8).extractLsb' 0 8 = c.extractLsb' 8 8 := by
  apply BitVec.eq_of_getLsbD_eq
  intro i hi
  simp [hi]

/-- The two CRC bytes of a register drive it to one value: the first cancels its low byte, the second its high byte. -/
theorem crcByte_crcByte_self (u : Crc) :
    crcByte (crcByte (u ^^^ 0xFFFF#16) (u.extractLsb' 0 8)) (u.extractLsb' 8 8) = 0x0F47#16 ^^^ 0xFFFF#16 := by
  have hfirst : crcByte (u ^^^ 0xFFFF#16) (u.extractLsb' 0 8) = ((u ^^^ 0xFFFF#16) >>> 8) ^^^ 0x0F78#16 := by
    rw [crcByte_eq_table, extractLsb'_xor_ones_xor u (by decide)]
    rfl
  have hlow : (((u ^^^ 0xFFFF#16) >>> 8) ^^^ 0x0F78#16).extractLsb' 0 8 ^^^ u.extractLsb' 8 8 = 0xFF#8 ^^^ 0x78#8 := by
    rw [BitVec.extractLsb'_xor, extractLsb'_zero_ushiftRight_eight, ← extractLsb'_xor_ones_xor u (k := 8) (by decide)]
    ac_rfl
  have hhigh : (((u ^^^ 0xFFFF#16) >>> 8) ^^^ 0x0F78#16) >>> 8 = 0x000F#16 := by
    rw [BitVec.ushiftRight_xor_distrib, ← BitVec.shiftRight_add, BitVec.ushiftRight_eq_zero (le_refl 16)]
    rfl
  rw [hfirst, crcByte_eq_table, hlow, hhigh]
  rfl

/-- Settles O18: behind its body a frame carries the two bytes that drive the register to the residue. -/
theorem frameResidueIsConstant : Obligations.FrameResidueIsConstant := by
  unfold Obligations.FrameResidueIsConstant
  intro nad pcb inf
  have hres : crcUnswapped (buildFrame nad pcb inf) = 0x0F47#16 := by
    rw [buildFrame_eq, crcUnswapped_append, crc16, crcHi_swapBytes, crcLo_swapBytes, List.foldl_cons, List.foldl_cons,
      List.foldl_nil, crcByte_crcByte_self]
    rfl
  exact ⟨hres, by rw [crc16, hres]; rfl⟩

/-! ## The round trip of a frame (R178) -/

theorem verifyFrame_buildFrame (nad pcb : Byte) {inf : List Byte} (h : inf.length ≤ 254) :
    (verifyFrame (buildFrame nad pcb inf)).2 = true := by
  rw [buildFrame_eq, verifyFrame_frameBody_append nad pcb _ _ h]
  exact crcHi_mul_add_crcLo _

/-- The bytes of a frame behind its header begin with INF. -/
theorem drop_buildFrame (nad pcb : Byte) (inf : List Byte) :
    (buildFrame nad pcb inf).drop 3 =
      inf ++ [crcHi (crc16 (frameBody nad pcb inf)), crcLo (crc16 (frameBody nad pcb inf))] := rfl

/-- Settles O22. -/
theorem frameRoundTrip : Obligations.FrameRoundTrip := by
  unfold Obligations.FrameRoundTrip
  intro nad pcb inf hinf
  refine ⟨verifyFrame_buildFrame nad pcb hinf, rfl, rfl, frameLen_buildFrame nad pcb hinf, ?_⟩
  rw [drop_buildFrame, List.take_left]

/-! ## A changed byte (R150, R177, R182) -/

/-- A body with one byte changed, LEN apart, is the body of other parts with an INF of the same length. -/
theorem frameBody_set (nad pcb b : Byte) {inf : List Byte} {i : Nat} (hi : i ≠ 2) :
    ∃ nad' pcb' inf', inf'.length = inf.length ∧ (frameBody nad pcb inf).set i b = frameBody nad' pcb' inf' := by
  match i, hi with
  | 0, _ => exact ⟨b, pcb, inf, rfl, rfl⟩
  | 1, _ => exact ⟨nad, b, inf, rfl, rfl⟩
  | k + 3, _ =>
    have hlen : (inf.set k b).length = inf.length := List.length_set
    refine ⟨nad, pcb, inf.set k b, hlen, ?_⟩
    rw [frameBody, frameBody, hlen]
    rfl

/-- Settles O23: a change in the body changes the CRC that the two last bytes are held against, a change in those two bytes
changes what is held against the CRC. -/
theorem oneCorruptedByteIsRejected : Obligations.OneCorruptedByteIsRejected := by
  unfold Obligations.OneCorruptedByteIsRejected
  intro s nad pcb b inf i hinf hi hlen hb
  have hrejected {nad' pcb' hi' lo' : Byte} {inf' : List Byte} (hinf' : inf'.length ≤ 254)
      (hne : hi'.toNat * 256 + lo'.toNat ≠ (crc16 (frameBody nad' pcb' inf')).toNat) :
      exec (.frameDecode 0#8 (frameBody nad' pcb' inf' ++ [hi', lo'])) s =
        .next { s with out := s.out ++ [⟨.errProtoCrc, []⟩] } := by
    rw [exec_frameDecode_frameBody_append nad' pcb' hi' lo' hinf', if_neg hne, raise_eq]
  have hcrc := crcHi_mul_add_crcLo (crc16 (frameBody nad pcb inf))
  rw [buildFrame_eq] at hb ⊢
  by_cases hbody : i < 3 + inf.length
  · have hin : i < (frameBody nad pcb inf).length := by rwa [frameBody_length]
    rw [byteAt_append_left hin] at hb
    obtain ⟨nad', pcb', inf', hlen', hset⟩ := frameBody_set nad pcb b (inf := inf) hlen
    rw [List.set_append_left _ _ hin, hset]
    refine hrejected (hlen'.trans_le hinf) ?_
    rw [hcrc, ← hset]
    exact fun h => crc16_set_ne hin hb (BitVec.eq_of_toNat_eq h).symm
  · have hout : (frameBody nad pcb inf).length ≤ i := by rw [frameBody_length]; omega
    rw [byteAt_append_right hout] at hb
    rw [List.set_append_right _ _ hout]
    have hlast : i - (frameBody nad pcb inf).length = 0 ∨ i - (frameBody nad pcb inf).length = 1 := by
      rw [frameBody_length]
      omega
    rcases hlast with hpos | hpos
    · rw [hpos, byteAt_cons_zero, ne_eq, BitVec.toNat_eq] at hb
      rw [hpos]
      exact hrejected hinf (by omega)
    · rw [hpos, byteAt_cons_succ, byteAt_cons_zero, ne_eq, BitVec.toNat_eq] at hb
      rw [hpos]
      exact hrejected hinf (by omega)

/-! ## The parsing of a PCB (R173) -/

/-- Settles O24: bit 7 and bit 6 are the two top binary digits of the PCB, and the packed forms put the fields where classify
reads them. -/
theorem classifyByTopBits : Obligations.ClassifyByTopBits := by
  unfold Obligations.ClassifyByTopBits
  refine ⟨?byNumber, ?packedI, ?packedR, ?packedS⟩
  case byNumber => decide
  case packedI => decide
  case packedR => decide
  case packedS => decide

end Sys2Proof.Machine
end

section
/-!
SUPPORT. The arbiter (43_arbiter.md R200, R205, R206, R212): a transfer run on a known list of answers, what any transfer adds to
the bus trace, and the obligations over both.
-/

namespace Sys2Proof.Machine

/-! ## Transfers on known answers -/

/-- The events of an attempt that is NACKed and polled for again (R205, R206). -/
def nackedRound (s : State) (dir : BusDir) (n : Nat) (data : List Byte) : List BusEvent :=
  [.guardWait s.segtUs, .attempt dir s.i2cAddr n data .nack, .pollWait s.mpotUs]

/-- NACKs at the head of the answers use one attempt each, as long as one attempt is left after them (R205). -/
theorem xferRetry_nacks (s : State) (dir : BusDir) (n : Nat) (data : List Byte) (left k : Nat) {l : Link}
    {rest : List BusAnswer} (h : l.answers = List.replicate k .nack ++ rest) :
    xferRetry s dir n data (left + 1 + k) l = xferRetry s dir n data (left + 1)
      ⟨rest, l.draws, l.trace ++ (List.replicate k (nackedRound s dir n data)).flatten⟩ := by
  induction k generalizing l with
  | zero =>
    obtain ⟨answers, draws, trace⟩ := l
    simp only [List.replicate_zero, List.nil_append] at h
    simp [h]
  | succ k ih =>
    rw [← Nat.add_assoc, xferRetry, busAttempt_cons _ _ _ _ (l := l.record (.guardWait s.segtUs)) h]
    simp only [shapeAnswer]
    rw [if_neg (by omega), ih rfl]
    simp [Link.record, nackedRound, List.replicate_succ]

/-- k NACKs, k below MAX_RETRIES, and then what the attempts still allowed do with the answers behind them (R205). -/
theorem xfer_after_nacks {s : State} {dir : BusDir} {n k : Nat} {data d : List Byte} {ans rest : List BusAnswer}
    {st : Status} {ev : List BusEvent} (hk : k < maxRetries s) (h : s.link.answers = List.replicate k .nack ++ ans)
    (hlast : ∀ l : Link, l.answers = ans →
      xferRetry s dir n data (maxRetries s - k) l = (st, d, ⟨rest, l.draws, l.trace ++ ev⟩)) :
    xfer dir n data s = (st, d, { s with link := ⟨rest, s.link.draws,
      s.link.trace ++ (List.replicate k (nackedRound s dir n data)).flatten ++ ev⟩ }) := by
  obtain ⟨left, hleft⟩ : ∃ left, maxRetries s = left + 1 + k := ⟨maxRetries s - k - 1, by omega⟩
  have hsub : left + 1 = maxRetries s - k := by omega
  rw [xfer, hleft, xferRetry_nacks s dir n data left k h, hsub, hlast _ rfl]

/-- An answer that R200 allows is taken as it is. -/
theorem shapeAnswer_ack {dir : BusDir} {n : Nat} {d : List Byte} (h : d.length = ackBytes n dir) :
    shapeAnswer dir n (.ack d) = .ack d := by
  cases dir with
  | write => rw [shapeAnswer, List.length_eq_zero_iff.1 h]
  | read =>
    have hn : d.length = n := h
    rw [shapeAnswer, if_pos hn.ge, List.take_of_length_le hn.le]

/-- A SHORT or a FAULT ends a transfer at once (R205). -/
theorem xferRetry_broken {s : State} {dir : BusDir} {n : Nat} {data : List Byte} {left : Nat} {a : BusAnswer}
    {rest : List BusAnswer} (hleft : 0 < left) (ha : a = .fault ∨ ∃ j, j < n ∧ a = .short j) (l : Link)
    (h : l.answers = a :: rest) :
    xferRetry s dir n data left l = (.errTransport, [],
      ⟨rest, l.draws, l.trace ++ [.guardWait s.segtUs, .attempt dir s.i2cAddr n data a]⟩) := by
  obtain ⟨k, rfl⟩ : ∃ k, left = k + 1 := ⟨left - 1, by omega⟩
  rw [xferRetry, busAttempt_cons _ _ _ _ (l := l.record (.guardWait s.segtUs)) h]
  rcases ha with rfl | ⟨j, hj, rfl⟩
  · simp [shapeAnswer]
  · simp [shapeAnswer, hj]

/-- A NACK of the last attempt allowed ends a transfer without another wait (R205). -/
theorem xferRetry_last_nack {s : State} {dir : BusDir} {n : Nat} {data : List Byte} {rest : List BusAnswer} (l : Link)
    (h : l.answers = .nack :: rest) :
    xferRetry s dir n data 1 l = (.errNackTimeout, [],
      ⟨rest, l.draws, l.trace ++ [.guardWait s.segtUs, .attempt dir s.i2cAddr n data .nack]⟩) := by
  rw [xferRetry, busAttempt_cons _ _ _ _ (l := l.record (.guardWait s.segtUs)) h]
  simp [shapeAnswer, xferRetry]

theorem xfer_acked_after_nacks {s : State} {dir : BusDir} {n k : Nat} {data d : List Byte} {rest : List BusAnswer}
    (hk : k < maxRetries s) (hd : d.length = ackBytes n dir)
    (h : s.link.answers = List.replicate k .nack ++ .ack d :: rest) :
    xfer dir n data s = (.ok, d, { s with link := ⟨rest, s.link.draws,
      s.link.trace ++ (List.replicate k (nackedRound s dir n data)).flatten ++
        [.guardWait s.segtUs, .attempt dir s.i2cAddr n data (.ack d)]⟩ }) := by
  obtain ⟨left, hleft⟩ : ∃ left, maxRetries s - k = left + 1 := ⟨maxRetries s - k - 1, by omega⟩
  refine xfer_after_nacks hk h fun l hl => ?_
  rw [hleft, xferRetry_ack s dir n data d left hl (shapeAnswer_ack hd)]

theorem xfer_broken_after_nacks {s : State} {dir : BusDir} {n k : Nat} {data : List Byte} {a : BusAnswer}
    {rest : List BusAnswer} (hk : k < maxRetries s) (ha : a = .fault ∨ ∃ j, j < n ∧ a = .short j)
    (h : s.link.answers = List.replicate k .nack ++ a :: rest) :
    xfer dir n data s = (.errTransport, [], { s with link := ⟨rest, s.link.draws,
      s.link.trace ++ (List.replicate k (nackedRound s dir n data)).flatten ++
        [.guardWait s.segtUs, .attempt dir s.i2cAddr n data a]⟩ }) :=
  xfer_after_nacks hk h (xferRetry_broken (by omega) ha)

theorem xfer_all_nacks {s : State} {dir : BusDir} {n k : Nat} {data : List Byte} {rest : List BusAnswer}
    (hk : maxRetries s = k + 1) (h : s.link.answers = List.replicate (k + 1) .nack ++ rest) :
    xfer dir n data s = (.errNackTimeout, [], { s with link := ⟨rest, s.link.draws,
      s.link.trace ++ (List.replicate k (nackedRound s dir n data)).flatten ++
        [.guardWait s.segtUs, .attempt dir s.i2cAddr n data .nack]⟩ }) := by
  rw [List.replicate_succ', List.append_assoc, List.singleton_append] at h
  refine xfer_after_nacks (by omega) h fun l hl => ?_
  rw [hk, Nat.add_sub_cancel_left, xferRetry_last_nack l hl]

/-- Settles O25. -/
theorem transferSucceedsAfterNacks : Obligations.TransferSucceedsAfterNacks := by
  unfold Obligations.TransferSucceedsAfterNacks
  intro s dir n k data d rest hk hd h
  have hbytes : d.length = ackBytes n dir := by cases dir <;> exact hd
  exact xfer_acked_after_nacks hk hbytes h

/-- Settles O26. -/
theorem transferTimesOutAfterMaxRetries : Obligations.TransferTimesOutAfterMaxRetries := by
  unfold Obligations.TransferTimesOutAfterMaxRetries
  intro s dir n k data rest hk h
  exact xfer_all_nacks hk h

/-- Settles O27. -/
theorem transferStopsAtShortOrFault : Obligations.TransferStopsAtShortOrFault := by
  unfold Obligations.TransferStopsAtShortOrFault
  intro s dir n k data a rest hk ha h
  exact xfer_broken_after_nacks hk ha h

/-- Every failure of R205 in one form: the status, the answers taken and the events of their attempts. -/
theorem xfer_fails {s : State} {dir : BusDir} {n : Nat} {data : List Byte} {e : Status} {ans rest : List BusAnswer}
    (hf : TransferFails n (maxRetries s) e ans) (h : s.link.answers = ans ++ rest) :
    xfer dir n data s = (e, [], { s with link := ⟨rest, s.link.draws,
      s.link.trace ++ transferTrace s dir n data ans⟩ }) := by
  rcases hf with ⟨rfl, k, a, hk, ha, rfl⟩ | ⟨rfl, rfl⟩
  · rw [List.append_assoc, List.singleton_append] at h
    rw [xfer_broken_after_nacks hk ha h, transferTrace_nacks, List.append_assoc]
    rfl
  · obtain ⟨k, hk⟩ : ∃ k, maxRetries s = k + 1 := ⟨maxRetries s - 1, by have := one_le_maxRetries s; omega⟩
    rw [hk] at h
    rw [xfer_all_nacks hk h, hk, List.replicate_succ', transferTrace_nacks, List.append_assoc]
    rfl

theorem TransferFails.ne_ok {n most : Nat} {e : Status} {ans : List BusAnswer} (h : TransferFails n most e ans) :
    e ≠ .ok := by
  rcases h with ⟨rfl, -⟩ | ⟨rfl, -⟩ <;> decide

/-! ## What a transfer adds to the trace -/

/-- What R200 lets an ACK bring. -/
theorem length_of_shapeAnswer_ack {dir : BusDir} {n : Nat} {a : BusAnswer} {d : List Byte}
    (h : shapeAnswer dir n a = .ack d) : d.length = ackBytes n dir := by
  cases dir with
  | read => exact shapeAnswer_read h
  | write => rw [shapeAnswer_write h]; rfl

/-- The events of a transfer run with `left` attempts allowed, whatever the peer answers (R205, R206). -/
theorem xferRetry_transferTrace (s : State) (dir : BusDir) (n : Nat) (data : List Byte) (left : Nat) (hleft : 0 < left)
    (l : Link) :
    ∃ ev, (xferRetry s dir n data left l).2.2.trace = l.trace ++ ev ∧
      TransferTrace s.segtUs s.mpotUs s.i2cAddr dir n data left
        (decide ((xferRetry s dir n data left l).1 = .ok)) ev := by
  induction left generalizing l with
  | zero => cases hleft
  | succ left ih =>
    obtain ⟨a, hshape⟩ := busAttempt_answer s.i2cAddr dir n data (l.record (.guardWait s.segtUs))
    have htrace := busAttempt_trace s.i2cAddr dir n data (l.record (.guardWait s.segtUs))
    rw [xferRetry]
    split
    next d l1 hb =>
      rw [hb] at hshape htrace
      exact ⟨_, by simpa using htrace, .acked left d (length_of_shapeAnswer_ack hshape.symm)⟩
    next l1 hb =>
      rw [hb] at htrace
      by_cases hlast : left = 0
      · subst hlast
        exact ⟨_, by simpa [xferRetry] using htrace, .exhausted⟩
      · simp only [if_neg hlast]
        obtain ⟨ev, hev, htransfer⟩ := ih (by omega) (l1.record (.pollWait s.mpotUs))
        have hl1 : l1.trace = l.trace ++ [.guardWait s.segtUs, .attempt dir s.i2cAddr n data .nack] := by
          simpa using htrace
        exact ⟨_, by simpa [hl1] using hev, .retry left _ ev htransfer⟩
    next k l1 hb =>
      rw [hb] at hshape htrace
      exact ⟨_, by simpa using htrace, .failed left _ (.inr ⟨k, shapeAnswer_short hshape.symm, rfl⟩)⟩
    next l1 hb =>
      rw [hb] at htrace
      exact ⟨_, by simpa using htrace, .failed left _ (.inl rfl)⟩

theorem attempts_append (ev ev' : List BusEvent) : attempts (ev ++ ev') = attempts ev + attempts ev' :=
  List.countP_append

/-- A transfer makes at least one attempt and at most as many as it may (R212). -/
theorem TransferTrace.attempts_bounds {segt mpot : BitVec 16} {addr : BitVec 7} {dir : BusDir} {n : Nat}
    {data : List Byte} {left : Nat} {ok : Bool} {ev : List BusEvent}
    (h : TransferTrace segt mpot addr dir n data left ok ev) : 1 ≤ attempts ev ∧ attempts ev ≤ left := by
  induction h with
  | acked left d hd => exact ⟨le_rfl, Nat.le_add_left 1 left⟩
  | failed left a ha => exact ⟨le_rfl, Nat.le_add_left 1 left⟩
  | exhausted => exact ⟨le_rfl, le_rfl⟩
  | retry left ok rest h ih =>
    have hone : attempts (.guardWait segt :: .attempt dir addr n data .nack :: .pollWait mpot :: rest) = 1 + attempts rest :=
      attempts_append [.guardWait segt, .attempt dir addr n data .nack, .pollWait mpot] rest
    omega

/-- A transfer that ends OK ends with an ACKed attempt of its own. -/
theorem TransferTrace.acked_mem {segt mpot : BitVec 16} {addr : BitVec 7} {dir : BusDir} {n : Nat}
    {data : List Byte} {left : Nat} {ok : Bool} {ev : List BusEvent}
    (h : TransferTrace segt mpot addr dir n data left ok ev) (hok : ok = true) :
    ∃ d, d.length = ackBytes n dir ∧ .attempt dir addr n data (.ack d) ∈ ev := by
  induction h with
  | acked left d hd => exact ⟨d, hd, List.mem_cons_of_mem _ List.mem_cons_self⟩
  | failed left a ha => cases hok
  | exhausted => cases hok
  | retry left ok rest h ih =>
    obtain ⟨d, hd, hmem⟩ := ih hok
    exact ⟨d, hd, List.mem_append_right [_, _, _] hmem⟩

/-- The events of a transfer of the block (R205, R207). -/
theorem xfer_transferTrace (dir : BusDir) (n : Nat) (data : List Byte) (s : State) :
    ∃ ev, (xfer dir n data s).2.2.link.trace = s.link.trace ++ ev ∧
      TransferTrace s.segtUs s.mpotUs s.i2cAddr dir n data (maxRetries s)
        (decide ((xfer dir n data s).1 = .ok)) ev :=
  xferRetry_transferTrace s dir n data (maxRetries s) (one_le_maxRetries s) s.link

/-- The bytes of a transfer: a whole read on OK, nothing on an error (R200, R205). -/
theorem xfer_bytes (dir : BusDir) (n : Nat) (data : List Byte) (s : State) :
    ((xfer dir n data s).1 = .ok → (xfer dir n data s).2.1.length = ackBytes n dir) ∧
      ((xfer dir n data s).1 ≠ .ok → (xfer dir n data s).2.1 = []) := by
  rw [xfer_eq]
  rcases xferRetry_result s dir n data (maxRetries s) s.link with ⟨hst, hd⟩ | ⟨hst, hd⟩ | ⟨hst, hd⟩
  · exact ⟨fun _ => hd.trans (by cases dir <;> rfl), fun hne => absurd hst hne⟩
  · exact ⟨fun hok => by simp [hst] at hok, fun _ => hd⟩
  · exact ⟨fun hok => by simp [hst] at hok, fun _ => hd⟩

/-- Settles O28: the trace of a transfer has its number of attempts, and its result its bytes. -/
theorem transferAttemptsAreBounded : Obligations.TransferAttemptsAreBounded := by
  unfold Obligations.TransferAttemptsAreBounded
  intro s dir n data
  obtain ⟨ev, htrace, htransfer⟩ := xfer_transferTrace dir n data s
  obtain ⟨hleast, hmost⟩ := htransfer.attempts_bounds
  obtain ⟨hok, herr⟩ := xfer_bytes dir n data s
  have hst := xfer_status dir n data s
  simp only [transferStatuses, List.mem_cons, List.not_mem_nil, or_false] at hst
  refine ⟨_, _, _, rfl, ?_, ?_, hst, fun h hdir => ?_, herr⟩
  · have := congrArg attempts htrace
    rw [attempts_append] at this
    exact (Nat.add_le_add_left hleast _).trans this.ge
  · have := congrArg attempts htrace
    rw [attempts_append] at this
    exact this.le.trans (Nat.add_le_add_left hmost _)
  · subst hdir
    exact hok h

end Sys2Proof.Machine
end

section
/-!
SUPPORT. What an instruction can do, said once: a block row is a pass of RecvBlock's loop (44_engine.md R251), a command is its
legality check and then an answer, a register write, a frame sent, a receive (30_encoding.md R103, 44_engine.md R236 to R272). The
obligations that follow from the form alone.
-/

namespace Sys2Proof.Machine

/-! ## The block rows -/

/-- The pass of a row: the WTX response, the resend, or the return of the block (R251). -/
def blockPass (i : Instr) : Nat → State → Pass × State :=
  if i = .sWtxRequest then passWtxRequest else if i.asksResend then passRError else passReturned

theorem exec_block {i : Instr} (hl : i.layer = .block) (s : State) :
    exec i s = .next (receiveBlock (blockPass i) i.pcb s) := by
  cases i with
  | crcCalc | frameEncode | frameDecode | sendI | sendR | sendS | recv | softReset | hardReset | clearSeq | endExchange
  | rdreg | wrreg | readBuf | illegal => cases hl
  | _ => rfl

theorem blockPass_of_isReturned {i : Instr} (h : i.isReturned = true) : i.layer = .block ∧ blockPass i = passReturned := by
  cases i with
  | crcCalc | frameEncode | frameDecode | sendI | sendR | sendS | recv | softReset | hardReset | clearSeq | endExchange
  | rdreg | wrreg | readBuf | illegal | sWtxRequest | rBlockCrcError | rBlockOtherError | rBlockUnnamedError => cases h
  | _ => exact ⟨rfl, rfl⟩

theorem isWtxRequest_iff : ∀ pcb : Byte, isWtxRequest pcb = true ↔ decodeBlock pcb = .sWtxRequest := by decide

theorem isRError_eq_asksResend : ∀ pcb : Byte, isRError pcb = (decodeBlock pcb).asksResend := by decide

/-- The two tests on the PCB find the pass of the row it decodes to. -/
theorem blockPass_decodeBlock (pcb : Byte) : blockPass (decodeBlock pcb) = pass pcb := by
  funext left s
  simp only [blockPass, pass, ← isWtxRequest_iff, ← isRError_eq_asksResend]
  split_ifs <;> rfl

/-- Every row's pass is one of RecvBlock's, also for a term that no PCB decodes to. -/
theorem exists_pass_eq_blockPass (i : Instr) : ∃ pcb, blockPass i = pass pcb := by
  rw [blockPass]
  split_ifs
  · exact ⟨0xC3#8, rfl⟩
  · exact ⟨0x81#8, rfl⟩
  · exact ⟨0x00#8, rfl⟩

/-- What a row can do: nothing outside a receive, else go on with one re-entry fewer or end the command (R251, log 7). -/
theorem receiveBlock_induct {P : State → Prop} {h : Nat → State → Pass × State} {pcb : Byte} {s : State}
    (hnone : s.receiving = none → P s)
    (hagain : ∀ rc s1, s.receiving = some rc → h rc.left s = (.again, s1) →
      P { s1 with receiving := some { rc with left := rc.left - 1 } })
    (hdone : ∀ rc s1 st, s.receiving = some rc → h rc.left s = (.done st, s1) →
      P (finish rc.caller st pcb { s1 with receiving := none })) :
    P (receiveBlock h pcb s) := by
  rw [receiveBlock]
  split
  next hrecv => exact hnone hrecv
  next rc hrecv =>
    split
    next s1 hpass => exact hagain rc s1 hrecv hpass
    next st s1 hpass => exact hdone rc s1 st hrecv hpass

/-- Settles O52. -/
theorem blockRowsAgreeWithTheTests : Obligations.BlockRowsAgreeWithTheTests := by
  unfold Obligations.BlockRowsAgreeWithTheTests
  intro pcb s
  obtain ⟨-, hl, -⟩ := decodeBlock_spec pcb
  rw [exec_block hl, blockPass_decodeBlock, pcb_decodeBlock]

/-- Settles O53. -/
theorem blockOutsideAReceiveChangesNothing : Obligations.BlockOutsideAReceiveChangesNothing := by
  unfold Obligations.BlockOutsideAReceiveChangesNothing
  intro i s hl hrecv
  rw [exec_block hl, receiveBlock, hrecv]

/-! ## The commands -/

/-- The receive a command ends with, if it has one (R236, R246, R270, R272). -/
def caller : Instr → Option Caller
  | .sendI arg _ => if arg.getLsbD 5 then some .token else none
  | .recv _ _ => some .recv
  | .softReset _ _ => some .softReset
  | .hardReset _ _ => some .hardReset
  | _ => none

theorem caller_isSome (i : Instr) : (caller i).isSome = i.receives := by
  cases i with
  | sendI arg data =>
    rw [caller, Instr.receives]
    cases arg.getLsbD 5 <;> rfl
  | _ => rfl

/-- What follows a successful FrameSend: the receive, or the response (R236, R240, R242, R270, R272). -/
def afterSent (c : Option Caller) (s : State) : State :=
  match c with
  | some c => runReceive c s
  | none => complete .ok [] s

/-- What precedes FrameSend: SEND_I's toggle (R236). -/
def beforeSent (i : Instr) (s : State) : State :=
  match i with
  | .sendI _ _ => { s with ns := !s.ns }
  | _ => s

/-- The answer of a command that only reads, once its check has passed (R155, R180, R182, R293, R295). -/
def answerOf (s : State) : Instr → Option Response
  | .crcCalc _ data => some ⟨.ok, [crcHi (crc16 data), crcLo (crc16 data)]⟩
  | .frameEncode arg data => some ⟨.ok, buildFrame Config.nadHost arg data⟩
  | .frameDecode _ data =>
    some (if (verifyFrame data).2 then ⟨.ok, data.take (3 + frameLen data)⟩ else ⟨.errProtoCrc, []⟩)
  | .rdreg arg _ => some ⟨.ok, toBe32 (readReg arg s)⟩
  | .readBuf arg _ => some ⟨.ok, if arg = 0#8 then txFrame s else if arg = 1#8 then rxFrame s else atrBytes s⟩
  | _ => none

theorem argThenLen_eq_none_iff (reserved : Byte) (least most : Nat) (arg : Byte) (data : List Byte) :
    argThenLen reserved least most arg data = none ↔
      arg &&& reserved = 0#8 ∧ least ≤ data.length ∧ data.length ≤ most := by
  rw [argThenLen]
  split_ifs with harg hlen
  · simp [harg]
  · simp only [false_iff]
    omega
  · simp only [true_iff]
    exact ⟨not_not.1 harg, by omega⟩

/-- The PCB that SEND_I packs, from the bit of ARG that is M (R170, R236). -/
theorem packI_eq : ∀ (ns : Bool) (arg : Byte),
    packI ns (arg.getLsbD 5) = (if ns then 0x40#8 else 0x00#8) ||| (arg &&& 0x20#8) := by decide

/-- The PCB that SEND_R packs is the host's ARG, as far as it is legal (R171, R240). -/
theorem packR_eq : ∀ arg : Byte, arg &&& 0xEC#8 = 0#8 → packR (arg.getLsbD 4) (arg.extractLsb' 0 2) = 0x80#8 ||| arg := by
  decide

/-- The PCB that SEND_S packs is the host's ARG, as far as it is legal (R172, R242). -/
theorem packS_eq : ∀ arg : Byte, arg &&& 0xC0#8 = 0#8 → packS (arg.getLsbD 5) (arg.extractLsb' 0 5) = 0xC0#8 ||| arg := by
  decide

theorem reserved_of_checkSendR {arg : Byte} {data : List Byte} (h : checkSendR arg data = none) :
    arg &&& 0xEC#8 = 0#8 := by
  rw [checkSendR] at h
  split_ifs at h
  obtain ⟨hres, -⟩ := (argThenLen_eq_none_iff _ _ _ _ _).1 h
  exact hres

theorem reserved_of_checkSendS {arg : Byte} {data : List Byte} (h : checkSendS arg data = none) :
    arg &&& 0xC0#8 = 0#8 := by
  obtain ⟨hres, -⟩ := (argThenLen_eq_none_iff _ _ _ _ _).1 h
  exact hres

theorem afterSent_caller_sendI (arg : Byte) (data : List Byte) :
    afterSent (caller (.sendI arg data)) =
      fun s => if arg.getLsbD 5 then runReceive .token s else complete .ok [] s := by
  rw [caller]
  cases arg.getLsbD 5 <;> rfl

theorem exec_sendI (arg : Byte) (data : List Byte) (s : State) :
    exec (.sendI arg data) s = .next (checkedThen (checkSendI arg data) s
      (afterFrameSend (fun s1 => if arg.getLsbD 5 then runReceive .token s1 else complete .ok [] s1)
        (frameSend (packI s.ns (arg.getLsbD 5)) data { s with ns := !s.ns }))) := rfl

theorem exec_sendR (arg : Byte) (data : List Byte) (s : State) :
    exec (.sendR arg data) s = .next (checkedThen (checkSendR arg data) s (afterFrameSend (complete .ok [])
      (frameSend (packR (arg.getLsbD 4) (arg.extractLsb' 0 2)) [] s))) := rfl

theorem exec_sendS (arg : Byte) (data : List Byte) (s : State) :
    exec (.sendS arg data) s = .next (checkedThen (checkSendS arg data) s (afterFrameSend (complete .ok [])
      (frameSend (packS (arg.getLsbD 5) (arg.extractLsb' 0 5)) data s))) := rfl

theorem exec_recv (arg : Byte) (data : List Byte) (s : State) :
    exec (.recv arg data) s = .next (checkedThen (checkPlain arg data) s (runReceive .recv s)) := rfl

theorem exec_softReset (arg : Byte) (data : List Byte) (s : State) :
    exec (.softReset arg data) s = .next (checkedThen (checkPlain arg data) s
      (afterFrameSend (runReceive .softReset) (frameSend (packS false 15#5) [] s))) := rfl

theorem exec_hardReset (arg : Byte) (data : List Byte) (s : State) :
    exec (.hardReset arg data) s = .next (checkedThen (checkPlain arg data) s
      (afterFrameSend (runReceive .hardReset) (frameSend (packS false 6#5) [] s))) := rfl

/-- The sending commands have one form (R236, R240, R242, R270, R272). -/
theorem exec_sends {i : Instr} {s : State} {pcb : Byte} {inf : List Byte} (hcheck : commandCheck i = none)
    (hsent : i.sentBlock s.ns = some (pcb, inf)) :
    exec i s = .next (afterFrameSend (afterSent (caller i)) (frameSend pcb inf (beforeSent i s))) := by
  cases i with
  | sendI arg data =>
    cases hsent
    rw [commandCheck] at hcheck
    rw [exec_sendI, hcheck, checkedThen_none, packI_eq, afterSent_caller_sendI]
    rfl
  | sendR arg data =>
    cases hsent
    rw [commandCheck] at hcheck
    rw [exec_sendR, hcheck, checkedThen_none, packR_eq arg (reserved_of_checkSendR hcheck)]
    rfl
  | sendS arg data =>
    cases hsent
    rw [commandCheck] at hcheck
    rw [exec_sendS, hcheck, checkedThen_none, packS_eq arg (reserved_of_checkSendS hcheck)]
    rfl
  | softReset arg data =>
    cases hsent
    rw [commandCheck] at hcheck
    rw [exec_softReset, hcheck, checkedThen_none]
    rfl
  | hardReset arg data =>
    cases hsent
    rw [commandCheck] at hcheck
    rw [exec_hardReset, hcheck, checkedThen_none]
    rfl
  | _ => cases hsent

/-- What a command can do in the state `s`, and the state after it: everything `exec` does on the command layer. -/
inductive CommandRun (s : State) : Instr → State → Prop where
  | refused (i : Instr) (e : Status) (hcheck : commandCheck i = some e) : CommandRun s i (raise e s)
  | sent (i : Instr) (pcb : Byte) (inf : List Byte) (hcheck : commandCheck i = none)
      (hsent : i.sentBlock s.ns = some (pcb, inf)) :
      CommandRun s i (afterFrameSend (afterSent (caller i)) (frameSend pcb inf (beforeSent i s)))
  | received (arg : Byte) (data : List Byte) : CommandRun s (.recv arg data) (runReceive .recv s)
  | answered (i : Instr) (r : Response) (hcheck : commandCheck i = none) (hanswer : answerOf s i = some r) :
      CommandRun s i (complete r.status r.data s)
  | clearedSeq (arg : Byte) (data : List Byte) :
      CommandRun s (.clearSeq arg data) (complete .ok [] { s with ns := false, nr := false })
  | endedExchange (arg : Byte) (data : List Byte) :
      CommandRun s (.endExchange arg data) (complete .ok [] { s with
        txbuf := zeros Config.frameBytes, txlen := 0, rxbuf := zeros Config.frameBytes, rxlen := 0, latch := false })
  | wroteReg (arg : Byte) (data : List Byte) (hcheck : checkWrreg arg data = none) :
      CommandRun s (.wrreg arg data) (complete .ok [] (writeReg arg (wrregValue data) s))

/-- What `exec` answers for a refused command. -/
theorem exec_of_refused {i : Instr} {e : Status} (hl : i.layer = .command) (hcheck : commandCheck i = some e) (s : State) :
    exec i s = .next (raise e s) := by
  obtain ⟨t, -, hexec⟩ := exec_command hl s
  rw [hexec, hcheck, checkedThen_some]

/-- A command that only reads answers without any other change. -/
theorem exec_of_answer {i : Instr} {s : State} {r : Response} (hcheck : commandCheck i = none)
    (hanswer : answerOf s i = some r) : exec i s = .next (complete r.status r.data s) := by
  cases i with
  | crcCalc arg data => cases hanswer; rw [exec_crcCalc, execCrcCalc_of_legal hcheck]
  | frameEncode arg data => cases hanswer; rw [exec_frameEncode, execFrameEncode_of_legal hcheck]; rfl
  | frameDecode arg data =>
    cases hanswer
    rw [exec_frameDecode, execFrameDecode_of_legal hcheck]
    split_ifs <;> rfl
  | rdreg arg data => cases hanswer; rw [commandCheck] at hcheck; rw [exec_rdreg, hcheck, checkedThen_none]
  | readBuf arg data => cases hanswer; rw [commandCheck] at hcheck; rw [exec_readBuf, hcheck, checkedThen_none]
  | _ => cases hanswer

theorem exec_commandRun {i : Instr} (hl : i.layer = .command) (s : State) :
    ∃ t, exec i s = .next t ∧ CommandRun s i t := by
  rcases hcheck : commandCheck i with _ | e
  case some => exact ⟨_, exec_of_refused hl hcheck s, .refused i e hcheck⟩
  case none =>
    cases i with
    | sendI | sendR | sendS | softReset | hardReset => exact ⟨_, exec_sends hcheck rfl, .sent _ _ _ hcheck rfl⟩
    | crcCalc | frameEncode | frameDecode | rdreg | readBuf =>
      exact ⟨_, exec_of_answer hcheck rfl, .answered _ _ hcheck rfl⟩
    | recv arg data =>
      rw [commandCheck] at hcheck
      exact ⟨_, by rw [exec_recv, hcheck, checkedThen_none], .received arg data⟩
    | clearSeq arg data =>
      rw [commandCheck] at hcheck
      exact ⟨_, by rw [exec_clearSeq, hcheck, checkedThen_none], .clearedSeq arg data⟩
    | endExchange arg data =>
      rw [commandCheck] at hcheck
      exact ⟨_, by rw [exec_endExchange, hcheck, checkedThen_none], .endedExchange arg data⟩
    | wrreg arg data =>
      rw [commandCheck] at hcheck
      exact ⟨_, by rw [exec_wrreg, hcheck, checkedThen_none], .wroteReg arg data hcheck⟩
    | illegal opc arg data => cases hcheck
    | _ => cases hl

theorem commandRun_of_exec {i : Instr} {s t : State} (hl : i.layer = .command) (h : exec i s = .next t) :
    CommandRun s i t := by
  obtain ⟨t', h', hrun⟩ := exec_commandRun hl s
  rw [h] at h'
  cases h'
  exact hrun

/-- After a FrameSend a command goes on or completes with its error. -/
theorem afterFrameSend_induct {P : State → Prop} {k : State → State} {r : Status × State}
    (hok : r.1 = .ok → P (k r.2)) (herr : r.1 ≠ .ok → P (raise r.1 r.2)) : P (afterFrameSend k r) := by
  obtain ⟨st, s⟩ := r
  cases st with
  | ok => exact hok rfl
  | _ => exact herr nofun

/-! ## What a receive and a sending command leave unchanged -/

/-- From `s` to `t` only the buffers, LATCH, NAD_MISMATCH, LAST_RX, the bus port and the draw counter are written, and one
response is given: all that a RecvBlock, a FrameSend and what follows them do (R232, R251, R324). -/
def ExchangeWrites (s t : State) : Prop :=
  ∃ tb tl b rb rl nm lr l k ab al r, t =
    { s with txbuf := tb, txlen := tl, latch := b, rxbuf := rb, rxlen := rl, nadMismatch := nm, lastRx := lr, link := l,
             echoDraws := k, atrbuf := ab, atrlen := al, out := s.out ++ [r] }

/-- A command's call of RecvBlock by its two parts. -/
theorem runReceive_eq (c : Caller) (s : State) :
    runReceive c s = finish c (recvBlock (maxRetries s) s).1 (byteAt (recvBlock (maxRetries s) s).2.rxbuf 1)
      (recvBlock (maxRetries s) s).2 := rfl

theorem runReceive_writes (c : Caller) (s : State) : ExchangeWrites s (runReceive c s) := by
  obtain ⟨tb, tl, b, rb, rl, nm, lr, l, k, hrecv⟩ := recvBlock_state (maxRetries s) s
  obtain ⟨ab, al, r, hfin⟩ := finish_state c (recvBlock (maxRetries s) s).1
    (byteAt (recvBlock (maxRetries s) s).2.rxbuf 1) (recvBlock (maxRetries s) s).2
  rw [runReceive_eq, hfin, hrecv]
  exact ⟨tb, tl, b, rb, rl, nm, lr, l, k, ab, al, r, rfl⟩

theorem afterFrameSend_writes (c : Option Caller) (pcb : Byte) (inf : List Byte) (s : State) :
    ExchangeWrites s (afterFrameSend (afterSent c) (frameSend pcb inf s)) := by
  obtain ⟨b, l, hsend⟩ := frameSend_state pcb inf s
  refine afterFrameSend_induct (P := ExchangeWrites s) (fun _ => ?_) (fun _ => ?_)
  · rw [hsend]
    cases c with
    | none => exact ⟨_, _, b, _, _, _, _, l, _, _, _, _, rfl⟩
    | some c =>
      obtain ⟨tb, tl, b', rb, rl, nm, lr, l', k, ab, al, r, h⟩ := runReceive_writes c
        { loadTx pcb inf s with latch := b, link := l }
      exact ⟨tb, tl, b', rb, rl, nm, lr, l', k, ab, al, r, h⟩
  · rw [hsend]
    exact ⟨_, _, b, _, _, _, _, l, _, _, _, _, rfl⟩

/-- A block row writes the same fields, ends the receive or uses one of its re-entries, and responds at most once. -/
theorem receiveBlock_state (i : Instr) (pcb : Byte) (s : State) :
    ∃ tb tl b l k ab al rc o, receiveBlock (blockPass i) pcb s =
      { s with txbuf := tb, txlen := tl, latch := b, link := l, echoDraws := k, atrbuf := ab, atrlen := al,
               receiving := rc, out := o } := by
  obtain ⟨pcb', hpass⟩ := exists_pass_eq_blockPass i
  rw [hpass]
  refine receiveBlock_induct (P := fun t => ∃ tb tl b l k ab al rc o, t =
    { s with txbuf := tb, txlen := tl, latch := b, link := l, echoDraws := k, atrbuf := ab, atrlen := al,
             receiving := rc, out := o }) (fun _ => ⟨_, _, _, _, _, _, _, _, _, rfl⟩) ?_ ?_
  · intro rc s1 _ h
    obtain ⟨tb, tl, b, l, k, hs1⟩ := pass_state pcb' rc.left s
    rw [h] at hs1
    subst hs1
    exact ⟨tb, tl, b, l, k, _, _, _, _, rfl⟩
  · intro rc s1 st _ h
    obtain ⟨tb, tl, b, l, k, hs1⟩ := pass_state pcb' rc.left s
    rw [h] at hs1
    obtain ⟨ab, al, r, hfin⟩ := finish_state rc.caller st pcb { s1 with receiving := none }
    rw [hfin]
    subst hs1
    exact ⟨tb, tl, b, l, k, ab, al, _, _, rfl⟩

theorem layer_command_or_block (i : Instr) : i.layer = .command ∨ i.layer = .block := by
  cases i.layer with
  | command => exact .inl rfl
  | block => exact .inr rfl

/-- No instruction faults or is refused (R375). -/
theorem exists_exec_next (i : Instr) (s : State) : ∃ t, exec i s = .next t := by
  rcases layer_command_or_block i with hl | hl
  · obtain ⟨t, h, -⟩ := exec_commandRun hl s
    exact ⟨t, h⟩
  · exact ⟨_, exec_block hl s⟩

theorem writeReg_inputs (reg : Byte) (v : Word) (s : State) :
    (writeReg reg v s).params = s.params ∧ (writeReg reg v s).port = s.port ∧
      (writeReg reg v s).resetPin = s.resetPin := by
  simp only [writeReg]
  split_ifs <;> exact ⟨rfl, rfl, rfl⟩

theorem beforeSent_inputs (i : Instr) (s : State) :
    (beforeSent i s).params = s.params ∧ (beforeSent i s).port = s.port ∧ (beforeSent i s).resetPin = s.resetPin := by
  cases i <;> exact ⟨rfl, rfl, rfl⟩

/-- Settles O11: none of the three fields is among those that a command or a row writes. -/
theorem instructionsLeaveInputsAndParametersAlone : Obligations.InstructionsLeaveInputsAndParametersAlone := by
  unfold Obligations.InstructionsLeaveInputsAndParametersAlone
  intro i s t hexec
  rcases layer_command_or_block i with hl | hl
  case inl =>
    cases commandRun_of_exec hl hexec with
    | sent _ pcb inf =>
      obtain ⟨_, _, _, _, _, _, _, _, _, _, _, _, h⟩ := afterFrameSend_writes (caller i) pcb inf (beforeSent i s)
      rw [h]
      exact beforeSent_inputs i s
    | received arg data =>
      obtain ⟨_, _, _, _, _, _, _, _, _, _, _, _, h⟩ := runReceive_writes .recv s
      rw [h]
      exact ⟨rfl, rfl, rfl⟩
    | wroteReg arg data => exact writeReg_inputs arg (wrregValue data) s
    | refused | answered | clearedSeq | endedExchange => exact ⟨rfl, rfl, rfl⟩
  case inr =>
    rw [exec_block hl] at hexec
    cases hexec
    obtain ⟨_, _, _, _, _, _, _, _, _, h⟩ := receiveBlock_state i i.pcb s
    rw [h]
    exact ⟨rfl, rfl, rfl⟩

/-! ## N(S) (R239) -/

theorem arg_only_m_iff : ∀ arg : Byte, (arg == 0x00#8 || arg == 0x20#8) = true ↔ arg &&& 0xDF#8 = 0#8 := by decide

/-- The legality checks of SEND_I as the obligation states them (R103, R236). -/
theorem isLegalSendI_sendI_iff (arg : Byte) (data : List Byte) :
    (Instr.sendI arg data).isLegalSendI = true ↔ checkSendI arg data = none := by
  rw [checkSendI, argThenLen_eq_none_iff, Instr.isLegalSendI, Bool.and_eq_true, arg_only_m_iff, decide_eq_true_iff]
  exact and_congr_right fun _ => ⟨fun h => ⟨Nat.zero_le _, h⟩, fun ⟨_, h⟩ => h⟩

theorem isLegalSendI_sendI (arg : Byte) (data : List Byte) :
    (Instr.sendI arg data).isLegalSendI = decide (checkSendI arg data = none) := by
  rw [← Bool.decide_coe (Instr.sendI arg data).isLegalSendI]
  exact decide_eq_decide.2 (isLegalSendI_sendI_iff arg data)

/-- A legal SEND_I toggles N(S), whatever its outcome, and of the other commands only CLEAR_SEQ writes it (R236, R239). -/
theorem exec_ns {i : Instr} {s t : State} (hl : i.layer = .command) (hclear : ∀ a d, i ≠ .clearSeq a d)
    (hexec : exec i s = .next t) : t.ns = (s.ns ^^ i.isLegalSendI) := by
  have hkept (hns : t.ns = s.ns) (hi : i.isLegalSendI = false) : t.ns = (s.ns ^^ i.isLegalSendI) := by
    rw [hi, hns, Bool.xor_false]
  cases commandRun_of_exec hl hexec with
  | refused _ e hcheck =>
    refine hkept rfl ?_
    cases i with
    | sendI arg data =>
      rw [commandCheck] at hcheck
      rw [isLegalSendI_sendI, hcheck]
      rfl
    | _ => rfl
  | sent _ pcb inf hcheck =>
    obtain ⟨_, _, _, _, _, _, _, _, _, _, _, _, h⟩ := afterFrameSend_writes (caller i) pcb inf (beforeSent i s)
    have hns := congrArg State.ns h
    cases i with
    | sendI arg data =>
      rw [commandCheck] at hcheck
      rw [isLegalSendI_sendI, hcheck, hns]
      exact (Bool.xor_true _).symm
    | _ => exact hkept hns rfl
  | received arg data =>
    obtain ⟨_, _, _, _, _, _, _, _, _, _, _, _, h⟩ := runReceive_writes .recv s
    exact hkept (by rw [h]) rfl
  | answered _ r hcheck hanswer =>
    refine hkept rfl ?_
    cases i with
    | sendI => cases hanswer
    | _ => rfl
  | clearedSeq arg data => exact absurd rfl (hclear arg data)
  | endedExchange arg data => exact hkept rfl rfl
  | wroteReg arg data =>
    refine hkept ?_ rfl
    rw [complete_ns, writeReg]
    split_ifs <;> rfl

/-- A run of commands goes on from the state after the first. -/
theorem runCommands_cons {i : Instr} {s t : State} (h : exec i s = .next t) (cmds : List Instr) :
    runCommands (i :: cmds) s = runCommands cmds t := by
  rw [runCommands, h]

/-- One more command toggles the parity of the count if it counts. -/
theorem decide_countP_cons_odd (p : Instr → Bool) (i : Instr) (cmds : List Instr) :
    decide ((i :: cmds).countP p % 2 = 1) = (p i ^^ decide (cmds.countP p % 2 = 1)) := by
  rw [List.countP_cons]
  cases p i with
  | false => simp
  | true =>
    rw [Bool.true_xor, ← decide_not]
    exact decide_eq_decide.2 (by simp only [if_true]; omega)

theorem runCommands_ns (cmds : List Instr) (s : State)
    (h : ∀ i ∈ cmds, i.layer = .command ∧ ∀ a d, i ≠ .clearSeq a d) :
    (runCommands cmds s).ns = (s.ns ^^ decide (cmds.countP Instr.isLegalSendI % 2 = 1)) := by
  induction cmds generalizing s with
  | nil => exact (Bool.xor_false s.ns).symm
  | cons i cmds ih =>
    obtain ⟨⟨hl, hclear⟩, hcmds⟩ := List.forall_mem_cons.1 h
    obtain ⟨t, hexec⟩ := exists_exec_next i s
    rw [runCommands_cons hexec, ih t hcmds, exec_ns hl hclear hexec, decide_countP_cons_odd, Bool.xor_assoc]

/-- Settles O39, by induction on the commands for any N(S) at the start. -/
theorem sendSequenceCountsLegalSendI : Obligations.SendSequenceCountsLegalSendI := by
  unfold Obligations.SendSequenceCountsLegalSendI
  intro cmds s hns h
  rw [runCommands_ns cmds s h, hns, Bool.false_xor]

/-! ## SET_TIMING (R145) -/

theorem natOfBytes_toBe32 (v : Word) : natOfBytes (toBe32 v) = v.toNat := by
  have hv := v.isLt
  simp only [natOfBytes, toBe32, byteAt_cons_zero, byteAt_cons_succ, BitVec.extractLsb'_toNat, Nat.shiftRight_eq_div_pow]
  omega

/-- A legal WRREG as the assembler writes it (R118). -/
theorem exec_asmWrreg {reg : Byte} (hreg : reg ∈ writableRegs) {v : Word} (hlegal : legalRegValue reg v.toNat = true)
    (s : State) : exec (asmWrreg reg v) s = .next (complete .ok [] (writeReg reg (wrregValue (toBe32 v)) s)) :=
  exec_wrreg_of_legal hreg rfl ((natOfBytes_toBe32 v).symm ▸ hlegal) s

/-- Settles O58: three legal writes, each into its own register. -/
theorem setTimingSetsMaxRetries : Obligations.SetTimingSetsMaxRetries := by
  unfold Obligations.SetTimingSetsMaxRetries
  intro s segt mpot bwt hsegt hmpot hmpot' hbwt hbwt'
  have hrun : runCommands (setTiming segt mpot bwt) s =
      { s with segtUs := BitVec.ofNat 16 segt.toNat, mpotUs := BitVec.ofNat 16 mpot.toNat,
               bwtMs := BitVec.ofNat 16 bwt.toNat, out := s.out ++ [⟨.ok, []⟩, ⟨.ok, []⟩, ⟨.ok, []⟩] } := by
    rw [setTiming, runCommands_cons (exec_asmWrreg (by decide) ((legalRegValue_segtUs_iff _).2 hsegt) s),
      runCommands_cons (exec_asmWrreg (by decide) ((legalRegValue_mpotUs_iff _).2 ⟨hmpot, hmpot'⟩) _),
      runCommands_cons (exec_asmWrreg (by decide) ((legalRegValue_bwtMs_iff _).2 ⟨hbwt, hbwt'⟩) _), runCommands,
      writeReg_segtUs, writeReg_mpotUs, writeReg_bwtMs, natOfBytes_toBe32, natOfBytes_toBe32, natOfBytes_toBe32]
    simp [complete]
  have hvalue {v : Word} (h : v.toNat ≤ 65535) : (BitVec.ofNat 16 v.toNat).toNat = v.toNat := by
    rw [BitVec.toNat_ofNat]
    omega
  refine ⟨_, hrun, hvalue hsegt, hvalue hmpot', hvalue hbwt', ?_, rfl⟩
  have hreg (t : State) : regValue 4#8 t = some (max 1 (t.bwtMs.toNat * 1000 / t.mpotUs.toNat)) := rfl
  rw [hreg, hvalue hbwt', hvalue hmpot']

end Sys2Proof.Machine
end

section
/-!
SUPPORT. The response to a command (30_encoding.md R102, R107; 60_exceptions.md R322, R324): its status among those of the
command, no data on an error, and a length that RLEN can say.
-/

namespace Sys2Proof.Machine

/-! ## Completions -/

/-- A response that an error list allows: OK or one of the list, without data unless OK, and no longer than a block's NAD, PCB, LEN
and INF. -/
structure AllowedBy (errors : List Status) (r : Response) : Prop where
  status : r.status = .ok ∨ r.status ∈ errors
  noData : r.status ≠ .ok → r.data = []
  short : r.data.length ≤ 258

theorem AllowedBy.mono {l l' : List Status} {r : Response} (h : AllowedBy l r) (hl : l ⊆ l') : AllowedBy l' r :=
  ⟨h.status.imp_right fun hr => hl hr, h.noData, h.short⟩

/-- From `s` to `t` one response is given, and the error list allows it. -/
def RespondsBy (errors : List Status) (s t : State) : Prop := ∃ r, t.out = s.out ++ [r] ∧ AllowedBy errors r

theorem RespondsBy.mono {l l' : List Status} {s t : State} (h : RespondsBy l s t) (hl : l ⊆ l') : RespondsBy l' s t := by
  obtain ⟨r, hout, hr⟩ := h
  exact ⟨r, hout, hr.mono hl⟩

/-- A completion without data, with OK or an error of the list. -/
theorem complete_nil_respondsBy {errors : List Status} {st : Status} (hst : st = .ok ∨ st ∈ errors) {s s1 : State}
    (hout : s1.out = s.out) : RespondsBy errors s (complete st [] s1) :=
  ⟨⟨st, []⟩, by rw [complete_out, hout], hst, fun _ => rfl, Nat.zero_le _⟩

/-- The error statuses with which a command can end once its RecvBlock runs (R238, R246, R270, R272). -/
def callerErrors : Caller → List Status
  | .recv => recvStatuses
  | .token => .errProtoPcb :: .errProtoNr :: recvStatuses
  | .softReset => .errProtoPcb :: recvStatuses
  | .hardReset => .errProtoPcb :: recvStatuses

theorem mem_callerErrors {st : Status} (h : st ∈ receiveStatuses) (c : Caller) : st = .ok ∨ st ∈ callerErrors c := by
  revert st
  cases c <;> decide

theorem tokenStatus_cases (pcb : Byte) (ns : Bool) :
    tokenStatus pcb ns = .ok ∨ tokenStatus pcb ns ∈ [.errProtoPcb, .errProtoNr] := by
  rw [tokenStatus]
  split_ifs <;> decide

theorem finish_of_ne_ok {c : Caller} {st : Status} (h : st ≠ .ok) (pcb : Byte) (s : State) :
    finish c st pcb s = raise st s := by
  cases st with
  | ok => exact absurd rfl h
  | _ => rfl

theorem frameLen_lt (f : List Byte) : frameLen f < 256 := (byteAt f 2).isLt

theorem finish_respondsBy {st : Status} (hst : st ∈ receiveStatuses) (c : Caller) (pcb : Byte) {s s1 : State}
    (hout : s1.out = s.out) : RespondsBy (callerErrors c) s (finish c st pcb s1) := by
  by_cases hok : st = .ok
  · subst hok
    cases c with
    | recv =>
      refine ⟨⟨.ok, s1.rxbuf.take (3 + frameLen s1.rxbuf)⟩, by rw [finish, complete_out, hout], .inl rfl,
        fun h => absurd rfl h, ?_⟩
      have := frameLen_lt s1.rxbuf
      have := List.length_take_le (3 + frameLen s1.rxbuf) s1.rxbuf
      simp only
      omega
    | token =>
      refine complete_nil_respondsBy ((tokenStatus_cases pcb s1.ns).imp_right fun h => ?_) hout
      exact List.mem_append_left recvStatuses h
    | softReset =>
      simp only [finish]
      split_ifs
      · exact complete_nil_respondsBy (.inr List.mem_cons_self) hout
      · exact complete_nil_respondsBy (.inl rfl) hout
    | hardReset =>
      simp only [finish]
      split_ifs
      · exact complete_nil_respondsBy (.inr List.mem_cons_self) hout
      · exact complete_nil_respondsBy (.inl rfl) hout
  · rw [finish_of_ne_ok hok]
    exact complete_nil_respondsBy (mem_callerErrors hst c) hout

theorem runReceive_respondsBy (c : Caller) {s s1 : State} (hout : s1.out = s.out) :
    RespondsBy (callerErrors c) s (runReceive c s1) :=
  finish_respondsBy (recvBlock_status _ _) c _ ((recvBlock_out _ _).trans hout)

/-! ## Each command's error list (R322) -/

theorem argThenLen_some {reserved : Byte} {least most : Nat} {arg : Byte} {data : List Byte} {e : Status}
    (h : argThenLen reserved least most arg data = some e) : e = .errParam := by
  rw [argThenLen] at h
  split_ifs at h <;> exact (Option.some.inj h).symm

theorem checkFrameDecode_some {arg : Byte} {data : List Byte} {e : Status} (h : checkFrameDecode arg data = some e) :
    e = .errParam := by
  rw [checkFrameDecode] at h
  split at h
  next e' he => exact (Option.some.inj h).symm.trans (argThenLen_some he)
  next =>
    split_ifs at h
    exact (Option.some.inj h).symm

theorem checkSendR_some {arg : Byte} {data : List Byte} {e : Status} (h : checkSendR arg data = some e) :
    e = .errParam := by
  rw [checkSendR] at h
  split_ifs at h
  · exact (Option.some.inj h).symm
  · exact argThenLen_some h

theorem checkReadBuf_some {arg : Byte} {data : List Byte} {e : Status} (h : checkReadBuf arg data = some e) :
    e = .errParam := by
  rw [checkReadBuf] at h
  split_ifs at h
  · exact (Option.some.inj h).symm
  · exact argThenLen_some h

theorem checkRdreg_some {arg : Byte} {data : List Byte} {e : Status} (h : checkRdreg arg data = some e) :
    e ∈ [.errParam, .errReg] := by
  rw [checkRdreg] at h
  split_ifs at h
  · simp [← Option.some.inj h]
  · simp [argThenLen_some h]

theorem checkWrreg_some {arg : Byte} {data : List Byte} {e : Status} (h : checkWrreg arg data = some e) :
    e ∈ [.errParam, .errReg] := by
  by_cases hreg : arg ∈ writableRegs
  · rw [checkWrreg_of_mem hreg] at h
    split_ifs at h
    simp [← Option.some.inj h]
  · rw [checkWrreg_of_not_mem hreg] at h
    simp [← Option.some.inj h]

/-- A refused command's error is on its list. -/
theorem commandCheck_mem {i : Instr} {e : Status} (h : commandCheck i = some e) : e ∈ errorStatuses i := by
  cases i with
  | crcCalc | frameEncode | recv | sendS | clearSeq | endExchange =>
    rw [argThenLen_some h]
    exact List.mem_cons_self
  | softReset | hardReset =>
    rw [argThenLen_some h]
    exact List.mem_cons_of_mem _ List.mem_cons_self
  | sendI arg data =>
    rw [argThenLen_some h, errorStatuses]
    split_ifs <;> exact List.mem_cons_self
  | frameDecode arg data =>
    rw [checkFrameDecode_some h]
    exact List.mem_cons_self
  | sendR arg data =>
    rw [checkSendR_some h]
    exact List.mem_cons_self
  | readBuf arg data =>
    rw [checkReadBuf_some h]
    exact List.mem_cons_self
  | rdreg arg data => exact checkRdreg_some h
  | wrreg arg data => exact checkWrreg_some h
  | illegal opc arg data =>
    rw [← Option.some.inj h]
    exact List.mem_cons_self
  | _ => cases h

/-- A sending command's list holds the errors of a transfer. -/
theorem transferErrors_subset {i : Instr} (h : i.sends = true) :
    [Status.errTransport, .errNackTimeout] ⊆ errorStatuses i := by
  have hsend : [Status.errTransport, .errNackTimeout] ⊆ [.errParam, .errTransport, .errNackTimeout] := by decide
  have hreset : [Status.errTransport, .errNackTimeout] ⊆ .errProtoPcb :: recvStatuses := by decide
  cases i with
  | sendI arg data =>
    rw [errorStatuses]
    split_ifs
    · decide
    · exact hsend
  | sendR | sendS => exact hsend
  | softReset | hardReset => exact hreset
  | _ => cases h

/-- A command's list holds the errors of the receive it ends with. -/
theorem callerErrors_subset {i : Instr} {c : Caller} (h : caller i = some c) : callerErrors c ⊆ errorStatuses i := by
  cases i with
  | sendI arg data =>
    rw [caller] at h
    rw [errorStatuses]
    split_ifs at h with hm
    cases h
    rw [if_pos hm]
    decide
  | recv | softReset | hardReset => cases h; exact List.Subset.refl _
  | _ => cases h

theorem beforeSent_out (i : Instr) (s : State) : (beforeSent i s).out = s.out := by
  cases i <;> rfl

theorem sent_respondsBy {i : Instr} (h : i.sends = true) (pcb : Byte) (inf : List Byte) (s : State) :
    RespondsBy (errorStatuses i) s (afterFrameSend (afterSent (caller i)) (frameSend pcb inf (beforeSent i s))) := by
  have hout := (frameSend_out pcb inf (beforeSent i s)).trans (beforeSent_out i s)
  refine afterFrameSend_induct (P := RespondsBy (errorStatuses i) s) (fun _ => ?_) (fun _ => ?_)
  · rcases hc : caller i with _ | c
    · exact complete_nil_respondsBy (.inl rfl) hout
    · exact (runReceive_respondsBy c hout).mono (callerErrors_subset hc)
  · exact complete_nil_respondsBy
      ((List.mem_cons.1 (frameSend_status _ _ _)).imp_right fun herr => transferErrors_subset h herr) hout

theorem sends_of_sentBlock {i : Instr} {ns : Bool} {p : Byte × List Byte} (h : i.sentBlock ns = some p) :
    i.sends = true := by
  cases i with
  | sendI | sendR | sendS | softReset | hardReset => rfl
  | _ => cases h

/-- A command responds as its error list allows, or with the answer it reads. -/
theorem commandRun_responds {i : Instr} {s t : State} (h : CommandRun s i t) :
    RespondsBy (errorStatuses i) s t ∨
      ∃ r, commandCheck i = none ∧ answerOf s i = some r ∧ t = complete r.status r.data s := by
  cases h with
  | refused _ e hcheck => exact .inl (complete_nil_respondsBy (.inr (commandCheck_mem hcheck)) rfl)
  | sent _ pcb inf hcheck hsent => exact .inl (sent_respondsBy (sends_of_sentBlock hsent) pcb inf s)
  | received arg data => exact .inl (runReceive_respondsBy .recv rfl)
  | answered _ r hcheck hanswer => exact .inr ⟨r, hcheck, hanswer, rfl⟩
  | clearedSeq | endedExchange => exact .inl (complete_nil_respondsBy (.inl rfl) rfl)
  | wroteReg arg data => exact .inl (complete_nil_respondsBy (.inl rfl) (writeReg_out _ _ _))

/-- The answers of the reading commands: OK, but for a FRAME_DECODE with a wrong CRC (R155, R180, R182, R293, R295). -/
theorem answerOf_status {i : Instr} {s : State} {r : Response} (h : answerOf s i = some r) :
    (r.status = .ok ∨ r.status ∈ errorStatuses i) ∧ (r.status ≠ .ok → r.data = []) := by
  cases i with
  | crcCalc | frameEncode | rdreg | readBuf =>
    cases h
    exact ⟨.inl rfl, fun hne => absurd rfl hne⟩
  | frameDecode arg data =>
    cases h
    split_ifs
    · exact ⟨.inl rfl, fun hne => absurd rfl hne⟩
    · exact ⟨.inr (List.mem_cons_of_mem _ List.mem_cons_self), fun _ => rfl⟩
  | _ => cases h

/-- Settles O14. -/
theorem oneResponsePerCommand : Obligations.OneResponsePerCommand := by
  unfold Obligations.OneResponsePerCommand
  intro i s t hl hexec
  rcases commandRun_responds (commandRun_of_exec hl hexec) with ⟨r, hout, hr⟩ | ⟨r, -, hanswer, rfl⟩
  · exact ⟨r, hout, hr.status, hr.noData⟩
  · exact ⟨r, complete_out r.status r.data s, answerOf_status hanswer⟩

/-! ## The length of a response (R102, R107) -/

/-- A buffer's valid bytes are no more than its length field says. -/
theorem length_take_le_of_bufWf {size len : Nat} {b : List Byte} (h : bufWf size len b = true) :
    (b.take len).length ≤ size := by
  simp only [bufWf, Bool.and_eq_true, beq_iff_eq, decide_eq_true_iff] at h
  obtain ⟨⟨-, hlen⟩, -⟩ := h
  exact (List.length_take_le len b).trans hlen

/-- What a state in order says, by its parts. -/
structure InOrder (s : State) : Prop where
  tx : bufWf Config.frameBytes s.txlen s.txbuf = true
  rx : bufWf Config.frameBytes s.rxlen s.rxbuf = true
  atr : bufWf Config.atrBytes s.atrlen s.atrbuf = true
  txCache : txCacheWf s = true
  rxLayout : rxLayoutWf s = true
  timing : timingWf s = true
  receive : receiveWf s = true

theorem inOrder_iff (s : State) : s.inOrder = true ↔ InOrder s := by
  simp only [State.inOrder, Bool.and_eq_true]
  constructor
  · rintro ⟨⟨⟨⟨⟨⟨htx, hrx⟩, hatr⟩, hcache⟩, hlayout⟩, htiming⟩, hreceive⟩
    exact ⟨htx, hrx, hatr, hcache, hlayout, htiming, hreceive⟩
  · rintro ⟨htx, hrx, hatr, hcache, hlayout, htiming, hreceive⟩
    exact ⟨⟨⟨⟨⟨⟨htx, hrx⟩, hatr⟩, hcache⟩, hlayout⟩, htiming⟩, hreceive⟩

/-- The longest answer is a whole frame: FRAME_ENCODE's, or a frame buffer's content. -/
theorem answerOf_length {i : Instr} {s : State} {r : Response} (hs : InOrder s) (hcheck : commandCheck i = none)
    (h : answerOf s i = some r) : r.data.length ≤ 259 := by
  cases i with
  | crcCalc arg data =>
    cases h
    exact (by decide : 2 ≤ 259)
  | rdreg arg data =>
    cases h
    exact (by decide : 4 ≤ 259)
  | frameEncode arg data =>
    cases h
    obtain ⟨-, -, hlen⟩ := (argThenLen_eq_none_iff _ _ _ _ _).1 hcheck
    have hmax : data.length ≤ 254 := hlen
    simp only [buildFrame_length]
    omega
  | frameDecode arg data =>
    cases h
    split_ifs
    · have := frameLen_lt data
      have := List.length_take_le (3 + frameLen data) data
      simp only
      omega
    · exact Nat.zero_le _
  | readBuf arg data =>
    cases h
    have htx : (txFrame s).length ≤ 259 := length_take_le_of_bufWf hs.tx
    have hrx : (rxFrame s).length ≤ 259 := length_take_le_of_bufWf hs.rx
    have hatr : (atrBytes s).length ≤ 254 := length_take_le_of_bufWf hs.atr
    simp only
    split_ifs <;> omega
  | _ => cases h

/-- The two RLEN bytes are the two digits of the length in base 256. -/
theorem response_bytes_eq (r : Response) :
    r.bytes = [r.status.code, BitVec.ofNat 8 (r.data.length / 256), BitVec.ofNat 8 (r.data.length % 256)] ++ r.data := by
  have hlow : BitVec.ofNat 8 (r.data.length % 256) = BitVec.ofNat 8 r.data.length := by
    apply BitVec.eq_of_toNat_eq
    simp
  rw [Response.bytes, toBe16, hlow]
  rfl

/-- Settles O15. -/
theorem responsesFitTheirFrame : Obligations.ResponsesFitTheirFrame := by
  unfold Obligations.ResponsesFitTheirFrame
  intro i s t hs hl hexec
  rcases commandRun_responds (commandRun_of_exec hl hexec) with ⟨r, hout, hr⟩ | ⟨r, hcheck, hanswer, rfl⟩
  · exact ⟨r, hout, hr.short.trans (by decide), response_bytes_eq r⟩
  · exact ⟨r, complete_out r.status r.data s, answerOf_length ((inOrder_iff s).1 hs) hcheck hanswer, response_bytes_eq r⟩

end Sys2Proof.Machine
end

section
/-!
SUPPORT. The block engine against a peer whose answers are known (44_engine.md R232 to R272): a frame sent, a block received, and
the obligations over the commands with a plain course or one failure.
-/

namespace Sys2Proof.Machine

/-! ## Legal operands -/

theorem checkPlain_zero_nil : checkPlain 0#8 [] = none := by
  rw [checkPlain_eq_ite, if_pos ⟨rfl, rfl⟩]

theorem exec_recv_legal (s : State) : exec (.recv 0#8 []) s = .next (runReceive .recv s) := by
  rw [exec_recv, checkPlain_zero_nil, checkedThen_none]

/-! ## A frame sent -/

/-- A command whose FrameSend is ACKed goes on from the state after the send (R232). -/
theorem exec_sends_acked {i : Instr} {s : State} {pcb : Byte} {inf d : List Byte} {rest : List BusAnswer}
    (hcheck : commandCheck i = none) (hsent : i.sentBlock s.ns = some (pcb, inf)) (h : s.link.answers = .ack d :: rest) :
    exec i s = .next (afterSent (caller i) ((beforeSent i s).afterSend (buildFrame 0x5A#8 pcb inf) rest)) := by
  have hlink : (beforeSent i s).link.answers = .ack d :: rest := by
    cases i <;> exact h
  rw [exec_sends hcheck hsent, frameSend_afterSend hlink]
  rfl

/-- The events of a transfer depend on the waits and the address only (R205). -/
theorem transferTrace_congr {s t : State} (hsegt : s.segtUs = t.segtUs) (hmpot : s.mpotUs = t.mpotUs)
    (haddr : s.i2cAddr = t.i2cAddr) (dir : BusDir) (n : Nat) (data : List Byte) (ans : List BusAnswer) :
    transferTrace s dir n data ans = transferTrace t dir n data ans := by
  fun_induction transferTrace s dir n data ans with
  | case1 => rfl
  | case2 a => rw [transferTrace, hsegt, haddr]
  | case3 a b ans ih => rw [transferTrace, ih, hsegt, hmpot, haddr]

/-- A FrameSend whose transfer fails leaves the frame in TXBUF and the latch as it was (R232). -/
theorem frameSend_fails {pcb : Byte} {inf : List Byte} {s : State} {e : Status} {ans rest : List BusAnswer}
    (hf : TransferFails (5 + inf.length) (maxRetries s) e ans) (h : s.link.answers = ans ++ rest) :
    frameSend pcb inf s = (e, { loadTx pcb inf s with
      link := ⟨rest, s.link.draws,
        s.link.trace ++ transferTrace s .write (5 + inf.length) (buildFrame 0x5A#8 pcb inf) ans⟩ }) := by
  have hlen : (loadTx pcb inf s).txlen = 5 + inf.length := buildFrame_length _ _ _
  have hframe : txFrame (loadTx pcb inf s) = buildFrame 0x5A#8 pcb inf := take_bufFill
  have htrace := transferTrace_congr (s := loadTx pcb inf s) (t := s) rfl rfl rfl .write (5 + inf.length)
    (buildFrame 0x5A#8 pcb inf) ans
  have hx := xfer_fails (s := loadTx pcb inf s) (dir := .write) (data := buildFrame 0x5A#8 pcb inf) hf h
  simp only [frameSend, hlen, hframe, hx]
  cases e with
  | ok => exact absurd rfl hf.ne_ok
  | _ => simp only [htrace]; rfl

/-- SEND_I is legal with no ARG bit but M and an INF that fits (R236). -/
theorem commandCheck_sendI {arg : Byte} (harg : arg &&& 0xDF#8 = 0#8) {inf : List Byte} (hinf : inf.length ≤ 254) :
    commandCheck (.sendI arg inf) = none :=
  (argThenLen_eq_none_iff _ _ _ _ _).2 ⟨harg, Nat.zero_le _, hinf⟩

/-- Settles O29. -/
theorem sendIUnchainedSends : Obligations.SendIUnchainedSends := by
  unfold Obligations.SendIUnchainedSends
  intro s inf d rest hinf h
  have hpcb : (Instr.sendI 0x00#8 inf).sentBlock s.ns = some (if s.ns then 0x40#8 else 0x00#8, inf) := by
    rw [Instr.sentBlock]
    cases s.ns <;> rfl
  rw [exec_sends_acked (commandCheck_sendI rfl hinf) hpcb h]
  rfl

theorem afterFrameSend_of_ne_ok {e : Status} (he : e ≠ .ok) (k : State → State) (s : State) :
    afterFrameSend k (e, s) = raise e s := by
  cases e with
  | ok => exact absurd rfl he
  | _ => rfl

/-- Settles O30: the toggle and the frame are written before the transfer, and the error completes the command behind it. -/
theorem failedSendIKeepsItsWrites : Obligations.FailedSendIKeepsItsWrites := by
  unfold Obligations.FailedSendIKeepsItsWrites
  intro s m inf e ans rest f hinf hf hfails h
  subst hf
  have harg : (if m then 0x20#8 else 0x00#8) &&& 0xDF#8 = 0#8 := by cases m <;> rfl
  have hpcb : (Instr.sendI (if m then 0x20#8 else 0x00#8) inf).sentBlock s.ns =
      some ((if s.ns then 0x40#8 else 0x00#8) ||| (if m then 0x20#8 else 0x00#8), inf) := by
    rw [Instr.sentBlock]
    cases m <;> rfl
  have hfill (f : List Byte) (hf : f.length = 5 + inf.length) :
      bufFill Config.frameBytes f = f ++ List.replicate (254 - inf.length) 0#8 := by
    have hpad : Config.frameBytes - (5 + inf.length) = 254 - inf.length := by
      rw [Config.frameBytes]
      omega
    rw [bufFill, hf, zeros, hpad]
  have htrace := transferTrace_congr (t := s) (s := beforeSent (.sendI (if m then 0x20#8 else 0x00#8) inf) s) rfl rfl rfl
  rw [exec_sends (commandCheck_sendI harg hinf) hpcb,
    frameSend_fails (s := beforeSent (.sendI (if m then 0x20#8 else 0x00#8) inf) s) hfails h,
    afterFrameSend_of_ne_ok hfails.ne_ok, ← hfill _ (buildFrame_length _ _ _),
    htrace, ← buildFrame_length 0x5A#8
      ((if s.ns then 0x40#8 else 0x00#8) ||| (if m then 0x20#8 else 0x00#8)) inf]
  rfl

/-- Settles O32. -/
theorem sendRSends : Obligations.SendRSends := by
  unfold Obligations.SendRSends
  intro s arg d rest harg h
  have hlegal : ∀ a ∈ [0x00#8, 0x01#8, 0x02#8, 0x10#8, 0x11#8, 0x12#8],
      commandCheck (.sendR a []) = none ∧ 0x80#8 ||| a = 0x80#8 + a := by decide
  obtain ⟨hcheck, hpcb⟩ := hlegal arg harg
  rw [exec_sends_acked hcheck rfl h, hpcb]
  rfl

/-- Settles O33. -/
theorem sendSSends : Obligations.SendSSends := by
  unfold Obligations.SendSSends
  intro s arg inf d rest harg hinf h
  have hlegal : ∀ a : Byte, a.toNat < 64 → a &&& 0xC0#8 = 0#8 ∧ 0xC0#8 ||| a = 0xC0#8 + a := by decide
  obtain ⟨hres, hpcb⟩ := hlegal arg harg
  have hcheck : commandCheck (.sendS arg inf) = none :=
    (argThenLen_eq_none_iff _ _ _ _ _).2 ⟨hres, Nat.zero_le _, hinf⟩
  rw [exec_sends_acked hcheck rfl h, hpcb]
  rfl

/-! ## A block received -/

/-- ReadBlock of a frame as the peer builds it (R250). -/
theorem readBlock_buildFrame {s : State} {nad pcb : Byte} {inf : List Byte} {rest : List BusAnswer}
    (hinf : inf.length ≤ 254) (h : s.link.answers = blockAnswers (buildFrame nad pcb inf) ++ rest) :
    readBlock s = (.ok, s.afterBlock (buildFrame nad pcb inf) rest) := by
  have hlen := frameLen_buildFrame nad pcb hinf
  rw [readBlock_frame (by rw [buildFrame_length, hlen]) (hlen.trans_le hinf) h, verifyFrame_buildFrame nad pcb hinf]
  rfl

theorem afterBlock_frameLen (s : State) (nad pcb : Byte) {inf : List Byte} (hinf : inf.length ≤ 254)
    (rest : List BusAnswer) : frameLen (s.afterBlock (buildFrame nad pcb inf) rest).rxbuf = inf.length :=
  frameLen_buildFrame nad pcb hinf

/-- NAD, PCB, LEN and INF of the block received. -/
theorem afterBlock_take (s : State) (nad pcb : Byte) (inf : List Byte) (rest : List BusAnswer) :
    (s.afterBlock (buildFrame nad pcb inf) rest).rxbuf.take (3 + inf.length) =
      [nad, pcb, BitVec.ofNat 8 inf.length] ++ inf := by
  rw [State.afterBlock, buildFrame_eq, List.append_assoc, take_frameBody_append]
  rfl

/-- The INF of the block received. -/
theorem afterBlock_drop_take (s : State) (nad pcb : Byte) (inf : List Byte) (rest : List BusAnswer) :
    ((s.afterBlock (buildFrame nad pcb inf) rest).rxbuf.drop 3).take inf.length = inf := by
  have := congrArg (List.drop 3) (afterBlock_take s nad pcb inf rest)
  rw [List.drop_take, Nat.add_sub_cancel_left] at this
  exact this

theorem plainPcb_tests : ∀ pcb : Byte, plainPcb pcb = true → isWtxRequest pcb = false ∧ isRError pcb = false := by decide

theorem pass_of_plainPcb {pcb : Byte} (h : plainPcb pcb = true) (left : Nat) (s : State) :
    pass pcb left s = (.done .ok, s) := by
  obtain ⟨hwtx, herr⟩ := plainPcb_tests pcb h
  simp only [pass, hwtx, herr, Bool.false_eq_true, if_false, passReturned]

/-- RecvBlock returns the first block if it is plain (R251). -/
theorem recvBlock_plain {s : State} {nad pcb : Byte} {inf : List Byte} {rest : List BusAnswer} (hinf : inf.length ≤ 254)
    (hplain : plainPcb pcb = true) (h : s.link.answers = blockAnswers (buildFrame nad pcb inf) ++ rest) (left : Nat) :
    recvBlock left s = (.ok, s.afterBlock (buildFrame nad pcb inf) rest) :=
  recvBlock_done (readBlock_buildFrame hinf h) (pass_of_plainPcb hplain left _)

/-- A command's receive whose first block is plain. -/
theorem runReceive_plain {s : State} {nad pcb : Byte} {inf : List Byte} {rest : List BusAnswer} (hinf : inf.length ≤ 254)
    (hplain : plainPcb pcb = true) (h : s.link.answers = blockAnswers (buildFrame nad pcb inf) ++ rest) (c : Caller) :
    runReceive c s = finish c .ok pcb (s.afterBlock (buildFrame nad pcb inf) rest) := by
  rw [runReceive, recvBlock_plain hinf hplain h]
  rfl

/-- RECV's response to the block received (R246). -/
theorem finish_recv_afterBlock (s : State) (nad pcb : Byte) {inf : List Byte} (hinf : inf.length ≤ 254)
    (rest : List BusAnswer) :
    finish .recv .ok pcb (s.afterBlock (buildFrame nad pcb inf) rest) =
      complete .ok ([nad, pcb, BitVec.ofNat 8 inf.length] ++ inf) (s.afterBlock (buildFrame nad pcb inf) rest) := by
  rw [finish, afterBlock_frameLen s nad pcb hinf, afterBlock_take]

/-- Settles O34. -/
theorem recvReturnsAPlainBlock : Obligations.RecvReturnsAPlainBlock := by
  unfold Obligations.RecvReturnsAPlainBlock
  intro s inf nad pcb rest hinf hplain h
  rw [exec_recv_legal, runReceive_plain hinf hplain h, finish_recv_afterBlock s nad pcb hinf]
  rfl

/-- The three tests of the token check on a plain PCB, as masks (R238): N(R) against the new N(S). -/
theorem tokenStatus_of_plainPcb : ∀ (pcb : Byte) (ns : Bool), plainPcb pcb = true →
    tokenStatus pcb ns = if pcb &&& 0xC0#8 ≠ 0x80#8 then .errProtoPcb
      else if decide (pcb &&& 0x10#8 = 0x10#8) = ns then .ok else .errProtoNr := by decide

/-- Settles O31: the write, the block and the token check one after the other. -/
theorem sendIChainedChecksTheToken : Obligations.SendIChainedChecksTheToken := by
  unfold Obligations.SendIChainedChecksTheToken
  intro s inf d tinf nad pcb rest hinf htinf hplain h
  have hpcb : (Instr.sendI 0x20#8 inf).sentBlock s.ns = some (if s.ns then 0x60#8 else 0x20#8, inf) := by
    rw [Instr.sentBlock]
    cases s.ns <;> rfl
  have hcaller : caller (.sendI 0x20#8 inf) = some .token := rfl
  rw [exec_sends_acked (commandCheck_sendI rfl hinf) hpcb h, hcaller, afterSent, runReceive_plain htinf hplain rfl, finish]
  simp only
  rw [tokenStatus_of_plainPcb pcb _ hplain]
  rfl

/-- SOFT_RESET and the response it wants: its INF goes into the ATR cache (R270, R37). -/
theorem finish_softReset_response (s : State) :
    finish .softReset .ok 0xEF#8 s = complete .ok []
      { s with atrbuf := bufFill Config.atrBytes ((s.rxbuf.drop 3).take (frameLen s.rxbuf)), atrlen := frameLen s.rxbuf } :=
  rfl

theorem finish_softReset_other {pcb : Byte} (h : pcb ≠ 0xEF#8) (s : State) :
    finish .softReset .ok pcb s = raise .errProtoPcb s := if_pos h

/-- HARD_RESET and the block it gets: only the status depends on the PCB (R272). -/
theorem finish_hardReset (pcb : Byte) (s : State) :
    finish .hardReset .ok pcb s = complete (if pcb = 0xE6#8 then .ok else .errProtoPcb) [] s := by
  by_cases h : pcb = 0xE6#8
  · subst h
    rfl
  · rw [if_neg h]
    exact if_pos h

/-- Settles O37: the frame `5A CF 00` with its CRC, and the INF of the block received if it is the response. -/
theorem softResetCachesTheAtr : Obligations.SoftResetCachesTheAtr := by
  unfold Obligations.SoftResetCachesTheAtr
  intro s inf d nad pcb rest hinf hplain h
  have hframe : buildFrame 0x5A#8 0xCF#8 [] = [0x5A#8, 0xCF#8, 0x00#8, 0x37#8, 0x7F#8] := by decide +kernel
  have hcaller : caller (.softReset 0x00#8 []) = some .softReset := rfl
  rw [exec_sends_acked (i := .softReset 0x00#8 []) checkPlain_zero_nil rfl h, hcaller, afterSent,
    runReceive_plain hinf hplain rfl, hframe]
  by_cases hpcb : pcb = 0xEF#8
  · subst hpcb
    rw [finish_softReset_response, afterBlock_frameLen _ nad _ hinf, afterBlock_drop_take]
    rfl
  · rw [finish_softReset_other hpcb]
    simp only [if_neg hpcb]
    rfl

/-- Settles O38. -/
theorem hardResetKeepsTheAtr : Obligations.HardResetKeepsTheAtr := by
  unfold Obligations.HardResetKeepsTheAtr
  intro s inf d nad pcb rest hinf hplain h
  have hframe : buildFrame 0x5A#8 0xC6#8 [] = [0x5A#8, 0xC6#8, 0x00#8, 0x2F#8, 0xA8#8] := by decide +kernel
  have hcaller : caller (.hardReset 0x00#8 []) = some .hardReset := rfl
  rw [exec_sends_acked (i := .hardReset 0x00#8 []) checkPlain_zero_nil rfl h, hcaller, afterSent,
    runReceive_plain hinf hplain rfl, hframe, finish_hardReset]
  rfl

end Sys2Proof.Machine
end

section
/-!
SUPPORT. Receives that fail and receives that go on (44_engine.md R250, R251, R256, R258, R260): a header or a CRC that is
refused, a read that fails, WTX requests and error blocks before the block that is returned.
-/

namespace Sys2Proof.Machine

/-! ## ReadBlock by its two reads -/

/-- What ReadBlock does once the five bytes of the first read are in RXBUF (R250). -/
def afterHeader (s : State) : Status × State :=
  if Config.maxInf < frameLen s.rxbuf then (.errProtoLen, s)
  else if frameLen s.rxbuf = 0 then acceptFrame s
  else match xfer .read (frameLen s.rxbuf) [] s with
    | (.ok, d, s1) => acceptFrame (storeRx 5 d s1)
    | (e, _, s1) => (e, s1)

/-- The state once the first read has brought the header `h`, with the bus port `l` after it (R36, R250). -/
def withHeader (h : List Byte) (l : Link) (s : State) : State :=
  { s with rxbuf := bufFill Config.frameBytes h, rxlen := h.length, link := l }

theorem storeRx_clearRx (h : List Byte) (l : Link) (s : State) :
    storeRx 0 h { clearRx s with link := l } = withHeader h l s := by
  rw [storeRx, clearRx, bufWrite_zeros_zero, Nat.zero_add]
  rfl

theorem readBlock_of_header {s : State} {h : List Byte} {l : Link}
    (hx : xfer .read 5 [] (clearRx s) = (.ok, h, { clearRx s with link := l })) :
    readBlock s = afterHeader (withHeader h l s) := by
  rw [← storeRx_clearRx, readBlock, hx]
  rfl

theorem readBlock_of_failed_header {s s1 : State} {e : Status} {d : List Byte} (he : e ≠ .ok)
    (hx : xfer .read 5 [] (clearRx s) = (e, d, s1)) : readBlock s = (e, s1) := by
  rw [readBlock, hx]
  cases e with
  | ok => exact absurd rfl he
  | _ => rfl

/-- LEN of the header is LEN of the buffer that holds it. -/
theorem withHeader_frameLen {h : List Byte} (h5 : h.length = 5) (l : Link) (s : State) :
    frameLen (withHeader h l s).rxbuf = frameLen h := by
  rw [frameLen, withHeader, byteAt_bufFill (by omega), frameLen]

theorem afterHeader_of_long {s : State} (h : 254 < frameLen s.rxbuf) : afterHeader s = (.errProtoLen, s) := if_pos h

/-- ReadBlock when the first read brings a header with a LEN in range and the second read fails. -/
theorem readBlock_of_failed_rest {s s1 : State} {h d : List Byte} {l : Link} {e : Status} (h5 : h.length = 5)
    (hx : xfer .read 5 [] (clearRx s) = (.ok, h, { clearRx s with link := l })) (hleast : 1 ≤ frameLen h)
    (hmost : frameLen h ≤ 254) (he : e ≠ .ok) (hx2 : xfer .read (frameLen h) [] (withHeader h l s) = (e, d, s1)) :
    readBlock s = (e, s1) := by
  have hin : ¬ Config.maxInf < frameLen h := not_lt.2 hmost
  have hsome : frameLen h ≠ 0 := by omega
  rw [readBlock_of_header hx, afterHeader, withHeader_frameLen h5, if_neg hin, if_neg hsome, hx2]
  cases e with
  | ok => exact absurd rfl he
  | _ => rfl

/-! ## A receive that fails at its first block -/

/-- A command whose ReadBlock fails completes with that error (R251, R324). -/
theorem runReceive_error {s s1 : State} {e : Status} (he : e ≠ .ok) (h : readBlock s = (e, s1)) (c : Caller) :
    runReceive c s = raise e s1 := by
  rw [runReceive, recvBlock_error h he]
  exact finish_of_ne_ok he _ _

/-- Settles O35: LEN = 255 is refused before the second read, wrong CRC bytes after it. -/
theorem recvRejectsBadFrames : Obligations.RecvRejectsBadFrames := by
  unfold Obligations.RecvRejectsBadFrames
  constructor
  case left =>
    intro s nad pcb b3 b4 rest h
    have hx := xfer_ack (dir := .read) (n := 5) (data := []) (s := clearRx s) h (shapeAnswer_ack rfl)
    rw [exec_recv_legal, runReceive_error (by decide)
      ((readBlock_of_header hx).trans (afterHeader_of_long (by rw [withHeader_frameLen rfl]; exact (by decide : 254 < 255))))]
    rfl
  case right =>
    intro s inf nad pcb hi lo rest hinf hcrc h
    rw [← frameBody_eq] at hcrc h ⊢
    have hlen := frameLen_frameBody_append nad pcb hinf [hi, lo]
    have hverify : (verifyFrame (frameBody nad pcb inf ++ [hi, lo])).2 = false :=
      Bool.eq_false_iff.2 (mt (verifyFrame_frameBody_append nad pcb hi lo hinf).1 hcrc)
    have hread := readBlock_frame (by rw [frameBody_append_length, hlen]) (hlen.trans_le hinf) h
    simp only [hverify, Bool.false_eq_true, if_false] at hread
    rw [exec_recv_legal, runReceive_error (by decide) hread, raise_eq]
    rfl

/-- Settles O36: RXBUF is cleared before the first read and holds its five bytes before the second, and a transfer that fails
brings nothing. -/
theorem failedReadsStoreNothing : Obligations.FailedReadsStoreNothing := by
  unfold Obligations.FailedReadsStoreNothing
  constructor
  case left =>
    intro s e ans rest hf h
    have hx := xfer_fails (s := clearRx s) (dir := .read) (data := []) hf h
    rw [transferTrace_congr (s := clearRx s) (t := s) rfl rfl rfl] at hx
    rw [exec_recv_legal, runReceive_error hf.ne_ok (readBlock_of_failed_header hf.ne_ok hx), raise_eq]
    rfl
  case right =>
    intro s k nad pcb len b3 b4 e first ans rest hk hleast hmost hfirst hf h
    subst hfirst
    rw [List.append_assoc, List.singleton_append] at h
    have hx := xfer_acked_after_nacks (s := clearRx s) (dir := .read) (n := 5) (data := []) hk rfl h
    have hx2 := xfer_fails (s := withHeader [nad, pcb, len, b3, b4] ⟨ans ++ rest, s.link.draws, s.link.trace ++
      (List.replicate k (nackedRound s .read 5 [])).flatten ++
        [.guardWait s.segtUs, .attempt .read s.i2cAddr 5 [] (.ack [nad, pcb, len, b3, b4])]⟩ s) (dir := .read) (data := [])
      hf rfl
    rw [transferTrace_congr (s := withHeader _ _ s) (t := s) rfl rfl rfl] at hx2
    rw [exec_recv_legal, runReceive_error hf.ne_ok (readBlock_of_failed_rest rfl hx hleast hmost hf.ne_ok hx2), raise_eq,
      transferTrace_nacks, ← List.append_assoc]
    rfl

/-! ## An error block and its resend (R258) -/

theorem resendPcb_tests : ∀ pcb : Byte, pcb &&& 0xC0#8 = 0x80#8 → pcb &&& 0x03#8 ≠ 0#8 →
    isWtxRequest pcb = false ∧ isRError pcb = true := by decide

/-- An R-block with EE ≠ 0 goes to the retransmit pass (R251). -/
theorem pass_of_resendPcb {pcb : Byte} (hr : pcb &&& 0xC0#8 = 0x80#8) (hee : pcb &&& 0x03#8 ≠ 0#8) (left : Nat)
    (s : State) : pass pcb left s = passRError left s := by
  obtain ⟨hwtx, herr⟩ := resendPcb_tests pcb hr hee
  simp only [pass, hwtx, herr, Bool.false_eq_true, if_false, if_true]

theorem passRError_latched {s : State} (h : s.latch = true) (left : Nat) :
    passRError (left + 1) s = (.done .errRetxExhausted, s) := by
  simp [passRError, retransmit, h]

/-- The state after the cached frame has been resent, ACKed at the first attempt (R258). -/
def afterResend (rest : List BusAnswer) (s : State) : State :=
  { s with latch := true, link := ⟨rest, s.link.draws, s.link.trace ++ writeTrace s (s.txbuf.take s.txlen)⟩ }

theorem retransmit_acked {s : State} {d : List Byte} {rest : List BusAnswer} (hlatch : s.latch = false)
    (htx : s.txlen ≤ s.txbuf.length) (h : s.link.answers = .ack d :: rest) :
    retransmit s = (.ok, afterResend rest s) := by
  have hx := xfer_ack (dir := .write) (n := s.txlen) (data := txFrame s) (s := { s with latch := true }) (d := []) h rfl
  have hlen : (s.txbuf.take s.txlen).length = s.txlen := List.length_take_of_le htx
  have hlatch' : ¬ s.latch = true := Bool.not_eq_true _ ▸ hlatch
  rw [retransmit, if_neg hlatch', hx, afterResend, writeTrace, hlen]
  rfl

theorem passRError_acked {s : State} {d : List Byte} {rest : List BusAnswer} (hlatch : s.latch = false)
    (htx : s.txlen ≤ s.txbuf.length) (h : s.link.answers = .ack d :: rest) (left : Nat) :
    passRError (left + 1) s = (.again, afterResend rest s) := by
  rw [passRError, if_neg left.succ_ne_zero, retransmit_acked hlatch htx h]

theorem exists_maxRetries_succ (s : State) : ∃ k, maxRetries s = k + 1 :=
  ⟨maxRetries s - 1, by have := one_le_maxRetries s; omega⟩

/-- Settles O41. -/
theorem secondResendFails : Obligations.SecondResendFails := by
  unfold Obligations.SecondResendFails
  intro s inf nad pcb rest hinf hlatch hr hee h
  obtain ⟨k, hk⟩ := exists_maxRetries_succ s
  have hpass := (pass_of_resendPcb hr hee (k + 1) (s.afterBlock (buildFrame nad pcb inf) rest)).trans
    (passRError_latched (s := s.afterBlock (buildFrame nad pcb inf) rest) hlatch k)
  rw [exec_recv_legal, runReceive, hk, recvBlock_done (readBlock_buildFrame hinf h) hpass]
  rfl

/-- Settles O42: the error block, the resend and the plain block one after the other. -/
theorem firstResendRepeatsTheCachedFrame : Obligations.FirstResendRepeatsTheCachedFrame := by
  unfold Obligations.FirstResendRepeatsTheCachedFrame
  intro s einf inf d enad epcb nad pcb rest heinf hinf hlatch htx hr hee hplain h
  obtain ⟨k, hk⟩ := exists_maxRetries_succ s
  have hpass := (pass_of_resendPcb hr hee (k + 1) (s.afterBlock (buildFrame enad epcb einf)
    (.ack d :: (blockAnswers (buildFrame nad pcb inf) ++ rest)))).trans
    (passRError_acked (s := s.afterBlock (buildFrame enad epcb einf)
      (.ack d :: (blockAnswers (buildFrame nad pcb inf) ++ rest))) hlatch htx rfl k)
  have hrun : runReceive .recv s = complete .ok ([nad, pcb, BitVec.ofNat 8 inf.length] ++ inf)
      ((afterResend (blockAnswers (buildFrame nad pcb inf) ++ rest) (s.afterBlock (buildFrame enad epcb einf)
        (.ack d :: (blockAnswers (buildFrame nad pcb inf) ++ rest)))).afterBlock (buildFrame nad pcb inf) rest) := by
    rw [runReceive, hk, recvBlock_again (readBlock_buildFrame heinf h) hpass, recvBlock_plain hinf hplain rfl,
      ← finish_recv_afterBlock _ nad pcb hinf]
    rfl
  exact ⟨_, (exec_recv_legal s).trans (congrArg Host.Outcome.next hrun), rfl, rfl, rfl, rfl, rfl,
    List.take_left, rfl, rfl, rfl, rfl, rfl, rfl, rfl, rfl, rfl, rfl⟩

/-! ## WTX requests (R256, R260) -/

/-- The state after the WTX response with the echo byte `e` has been written, ACKed at the first attempt (R256). -/
def afterWtx (e : Byte) (rest : List BusAnswer) (s : State) : State :=
  match s.params.wtxCache with
  | .bypass => { s with
      link := ⟨rest, s.link.draws, s.link.trace ++ writeTrace s (buildFrame 0x5A#8 0xE3#8 [e])⟩ }
  | .overwrite => s.afterSend (buildFrame 0x5A#8 0xE3#8 [e]) rest

theorem wtxRespond_acked {s : State} {d : List Byte} {rest : List BusAnswer} (h : s.link.answers = .ack d :: rest)
    (e : Byte) : wtxRespond e s = (.ok, afterWtx e rest s) := by
  rw [wtxRespond, afterWtx]
  cases s.params.wtxCache with
  | bypass =>
    have hx := xfer_ack (dir := .write) (n := 6) (data := buildFrame Config.nadHost (packS true 3#5) [e]) (s := s) (d := [])
      h rfl
    simp only [hx]
    rfl
  | overwrite => exact frameSend_afterSend h

/-- The echo byte of the request in RXBUF and the draw counter after it (R251). -/
theorem passWtxRequest_acked {s : State} {d : List Byte} {rest : List BusAnswer} (h : s.link.answers = .ack d :: rest)
    (left : Nat) :
    passWtxRequest (left + 1) s = (.again, afterWtx (wtxEcho s).1 rest (wtxEcho s).2) := by
  have hlink : (wtxEcho s).2.link.answers = .ack d :: rest := by
    obtain ⟨k, hk⟩ := wtxEcho_state s
    rw [hk]
    exact h
  rw [passWtxRequest, if_neg left.succ_ne_zero, wtxRespond_acked hlink]

/-- One WTX request, as the peer sends it before it goes on (R251): the state in which RecvBlock reads the next block. -/
def afterWtxRound (w : Byte × List Byte) (more : List BusAnswer) (s : State) : State :=
  let s1 := s.afterBlock (buildFrame w.1 0xC3#8 w.2) (.ack [] :: more)
  afterWtx (wtxEcho s1).1 more (wtxEcho s1).2

theorem recvBlock_wtx {s : State} {w : Byte × List Byte} {more : List BusAnswer} (hw : w.2.length ≤ 254)
    (h : s.link.answers = wtxAnswers w ++ more) (left : Nat) :
    recvBlock (left + 1) s = recvBlock left (afterWtxRound w more s) := by
  rw [wtxAnswers, List.append_assoc, List.singleton_append] at h
  have hpass : pass 0xC3#8 (left + 1) (s.afterBlock (buildFrame w.1 0xC3#8 w.2) (.ack [] :: more)) =
      (.again, afterWtxRound w more s) :=
    passWtxRequest_acked (s := s.afterBlock (buildFrame w.1 0xC3#8 w.2) (.ack [] :: more)) rfl left
  exact recvBlock_again (readBlock_buildFrame hw h) hpass

/-- What a WTX request leaves alone: the peer's answers behind it, the responses, and all that NAD_MISMATCH takes from it. -/
theorem afterWtxRound_fields (w : Byte × List Byte) (more : List BusAnswer) (s : State) :
    (afterWtxRound w more s).link.answers = more ∧ (afterWtxRound w more s).out = s.out ∧
      (afterWtxRound w more s).params = s.params ∧
      (afterWtxRound w more s).nadMismatch = (s.nadMismatch || w.1 != 0xA5#8) := by
  obtain ⟨k, hk⟩ := wtxEcho_state (s.afterBlock (buildFrame w.1 0xC3#8 w.2) (.ack [] :: more))
  simp only [afterWtxRound, hk, afterWtx]
  split <;> exact ⟨rfl, rfl, rfl, rfl⟩

/-- Under BYPASS a WTX request writes RXBUF, LAST_RX, NAD_MISMATCH, the draw counter, the peer's answers and the trace, and
nothing else (R256, R260). -/
def WtxWrites (s t : State) : Prop :=
  ∃ rb rl lr nm k ans tr, t = { s with rxbuf := rb, rxlen := rl, lastRx := lr, nadMismatch := nm, echoDraws := k,
                                       link := ⟨ans, s.link.draws, tr⟩ }

theorem WtxWrites.trans {s t u : State} (h : WtxWrites s t) (h' : WtxWrites t u) : WtxWrites s u := by
  obtain ⟨_, _, _, _, _, _, _, rfl⟩ := h
  obtain ⟨rb, rl, lr, nm, k, ans, tr, rfl⟩ := h'
  exact ⟨rb, rl, lr, nm, k, ans, tr, rfl⟩

theorem afterWtxRound_writes {s : State} (hcache : s.params.wtxCache = .bypass) (w : Byte × List Byte)
    (more : List BusAnswer) : WtxWrites s (afterWtxRound w more s) := by
  obtain ⟨k, hk⟩ := wtxEcho_state (s.afterBlock (buildFrame w.1 0xC3#8 w.2) (.ack [] :: more))
  have hcache' : (s.afterBlock (buildFrame w.1 0xC3#8 w.2) (.ack [] :: more)).params.wtxCache = .bypass := hcache
  simp only [afterWtxRound, hk, afterWtx, hcache']
  exact ⟨_, _, _, _, _, _, _, rfl⟩

/-- WTX requests one after the other, as many as re-entries are used (R251, R260). -/
theorem recvBlock_wtxs {s : State} {ws : List (Byte × List Byte)} {more : List BusAnswer}
    (hws : ∀ w ∈ ws, w.2.length ≤ 254) (h : s.link.answers = ws.flatMap wtxAnswers ++ more) (left : Nat) :
    ∃ t, recvBlock (left + ws.length) s = recvBlock left t ∧ t.link.answers = more ∧ t.out = s.out ∧
      t.nadMismatch = (s.nadMismatch || ws.any fun w => w.1 != 0xA5#8) ∧
      (s.params.wtxCache = .bypass → WtxWrites s t) := by
  induction ws generalizing s with
  | nil =>
    exact ⟨s, rfl, h, rfl, (Bool.or_false _).symm, fun _ => ⟨_, _, _, _, _, _, _, rfl⟩⟩
  | cons w ws ih =>
    obtain ⟨hw, hws⟩ := List.forall_mem_cons.1 hws
    rw [List.flatMap_cons, List.append_assoc] at h
    obtain ⟨hanswers, hout, hparams, hnad⟩ := afterWtxRound_fields w (ws.flatMap wtxAnswers ++ more) s
    obtain ⟨t, hrun, hmore, hout', hnad', hwrites⟩ := ih hws hanswers
    refine ⟨t, ?_, hmore, hout'.trans hout, ?_, fun hcache => ?_⟩
    · rw [List.length_cons, ← Nat.add_assoc, recvBlock_wtx hw h, hrun]
    · rw [hnad', hnad, List.any_cons, Bool.or_assoc]
    · exact (afterWtxRound_writes hcache w _).trans (hwrites (by rw [hparams, hcache]))

/-- Settles O44: MAX_RETRIES requests use up the re-entries, and the next one meets the bound. -/
theorem oneWtxRequestTooManyEndsRecv : Obligations.OneWtxRequestTooManyEndsRecv := by
  unfold Obligations.OneWtxRequestTooManyEndsRecv
  intro s ws w rest hws hw hlen h
  obtain ⟨t, hrun, hmore, hout, -, -⟩ := recvBlock_wtxs hws h 0
  have hlast : recvBlock 0 t = (.errWtxLimit, t.afterBlock (buildFrame w.1 0xC3#8 w.2) rest) :=
    recvBlock_done (readBlock_buildFrame hw hmore) (show pass 0xC3#8 0 _ = _ from rfl)
  have hend : runReceive .recv s = raise .errWtxLimit (t.afterBlock (buildFrame w.1 0xC3#8 w.2) rest) := by
    rw [runReceive, ← hlen, ← Nat.zero_add ws.length, hrun, hlast]
    rfl
  exact ⟨_, (exec_recv_legal s).trans (congrArg Host.Outcome.next hend), congrArg (· ++ _) hout, rfl, rfl⟩

/-- What follows a returned block does not look at the trace, the draws or NAD_MISMATCH. -/
theorem finish_of_wtxWrites {s t : State} (h : WtxWrites s t) (c : Caller) (pcb : Byte) (f : List Byte)
    (rest : List BusAnswer) :
    finish c .ok pcb (t.afterBlock f rest) =
      { finish c .ok pcb (s.afterBlock f rest) with
        echoDraws := (finish c .ok pcb (t.afterBlock f rest)).echoDraws
        nadMismatch := (finish c .ok pcb (t.afterBlock f rest)).nadMismatch
        link := { (finish c .ok pcb (s.afterBlock f rest)).link with
          trace := (finish c .ok pcb (t.afterBlock f rest)).link.trace } } := by
  obtain ⟨_, _, _, _, _, _, _, rfl⟩ := h
  cases c with
  | recv => rfl
  | token => rfl
  | softReset =>
    by_cases hpcb : pcb = 0xEF#8
    · subst hpcb
      rfl
    · simp only [finish_softReset_other hpcb]
      rfl
  | hardReset =>
    simp only [finish_hardReset]
    rfl

/-- Settles O43: the requests are taken off by induction, and both runs then read the same block. -/
theorem wtxRequestsAreTransparent : Obligations.WtxRequestsAreTransparent := by
  unfold Obligations.WtxRequestsAreTransparent
  intro c s ws nad pcb inf rest hcache hws hlen hinf hplain h
  obtain ⟨left, hleft⟩ : ∃ left, maxRetries s = left + ws.length := ⟨maxRetries s - ws.length, by omega⟩
  obtain ⟨t, hrun, hmore, -, hnad, hwrites⟩ := recvBlock_wtxs hws h left
  have hrun1 : runReceive c s = finish c .ok pcb (t.afterBlock (buildFrame nad pcb inf) rest) := by
    rw [runReceive, hleft, hrun, recvBlock_plain hinf hplain hmore]
    rfl
  have hrun2 : runReceive c { s with link := { s.link with answers := blockAnswers (buildFrame nad pcb inf) ++ rest } } =
      finish c .ok pcb (s.afterBlock (buildFrame nad pcb inf) rest) := runReceive_plain hinf hplain rfl c
  refine ⟨_, _, hrun1, hrun2, finish_of_wtxWrites (hwrites hcache) c pcb _ rest, ?_⟩
  obtain ⟨_, _, _, hfin1⟩ := finish_state c .ok pcb (t.afterBlock (buildFrame nad pcb inf) rest)
  obtain ⟨_, _, _, hfin2⟩ := finish_state c .ok pcb (s.afterBlock (buildFrame nad pcb inf) rest)
  obtain ⟨_, _, _, nm, _, _, _, ht⟩ := hwrites hcache
  rw [hfin1, hfin2]
  subst ht
  refine ⟨List.take_left, rfl, rfl, rfl, rfl, rfl, rfl, rfl, fun hnads => ?_⟩
  have hnone : (ws.any fun w => w.1 != 0xA5#8) = false := by
    simpa using hnads
  have hsame : nm = s.nadMismatch := by rw [hnone, Bool.or_false] at hnad; exact hnad
  simp only [State.afterBlock, hsame]

end Sys2Proof.Machine
end

section
/-!
SUPPORT. The block rows in a receive (30_encoding.md R114, R115; 44_engine.md R251, R256, R258), and the receive taken block by
block against RecvBlock run at once (log 6).
-/

namespace Sys2Proof.Machine

/-! ## What each pass makes of a receive in progress -/

theorem receiveBlock_again {h : Nat → State → Pass × State} {s s1 : State} {rc : Receive} (hrecv : s.receiving = some rc)
    (hpass : h rc.left s = (.again, s1)) (pcb : Byte) :
    receiveBlock h pcb s = { s1 with receiving := some { rc with left := rc.left - 1 } } := by
  rw [receiveBlock, hrecv]
  simp only [hpass]

theorem receiveBlock_done {h : Nat → State → Pass × State} {s s1 : State} {rc : Receive} {st : Status}
    (hrecv : s.receiving = some rc) (hpass : h rc.left s = (.done st, s1)) (pcb : Byte) :
    receiveBlock h pcb s = finish rc.caller st pcb { s1 with receiving := none } := by
  rw [receiveBlock, hrecv]
  simp only [hpass]

/-- A returned row ends the receive (R251). -/
theorem exec_returned {i : Instr} {s : State} {rc : Receive} (hret : i.isReturned = true) (hrecv : s.receiving = some rc) :
    exec i s = .next (finish rc.caller .ok i.pcb { s with receiving := none }) := by
  obtain ⟨hl, hpass⟩ := blockPass_of_isReturned hret
  rw [exec_block hl, hpass, receiveBlock_done hrecv rfl]

/-- Settles O46. -/
theorem returnedBlockEndsRecv : Obligations.ReturnedBlockEndsRecv := by
  unfold Obligations.ReturnedBlockEndsRecv
  intro i s left _ hret hrecv
  rw [exec_returned hret hrecv]
  rfl

/-! ## The token check (R238) -/

theorem tokenStatus_rBlock : ∀ (nr i5 : Bool) (i32 : BitVec 2) (ns : Bool),
    tokenStatus (rBlockPcb nr i5 i32 0#2) ns = if nr = ns then .ok else .errProtoNr := by decide

theorem tokenStatus_iBlock : ∀ (ns m : Bool) (ignored : BitVec 5) (ns' : Bool),
    tokenStatus (iBlockPcb ns m ignored) ns' = .errProtoPcb := by decide

theorem tokenStatus_sBlock : ∀ (dir : Bool) (type : BitVec 5) (ns : Bool),
    tokenStatus (sBlockPcb dir type) ns = .errProtoPcb := by decide

/-- A returned row that is no R-block fails the first of the three tests. -/
theorem tokenStatus_of_returned {i : Instr} (hret : i.isReturned = true)
    (hother : ∀ nr i5 i32, i ≠ .rBlockNoError nr i5 i32) (ns : Bool) : tokenStatus i.pcb ns = .errProtoPcb := by
  cases i with
  | iBlock ns' m ignored => exact tokenStatus_iBlock ns' m ignored ns
  | rBlockNoError nr i5 i32 => exact absurd rfl (hother nr i5 i32)
  | crcCalc | frameEncode | frameDecode | sendI | sendR | sendS | recv | softReset | hardReset | clearSeq | endExchange
  | rdreg | wrreg | readBuf | illegal | sWtxRequest | rBlockCrcError | rBlockOtherError | rBlockUnnamedError => cases hret
  | _ => exact tokenStatus_sBlock _ _ ns

/-- Settles O47: the three tests of the token check, on the PCB of each kind of row. -/
theorem returnedBlockEndsTokenCheck : Obligations.ReturnedBlockEndsTokenCheck := by
  unfold Obligations.ReturnedBlockEndsTokenCheck
  intro i s left _ hret hrecv
  refine ⟨tokenStatus i.pcb s.ns, by rw [exec_returned hret hrecv]; rfl, ?_, fun hother => ?_⟩
  · rintro nr i5 i32 rfl
    exact tokenStatus_rBlock nr i5 i32 s.ns
  · exact tokenStatus_of_returned hret hother s.ns

/-! ## The two resets (R270, R272) -/

/-- A PCB belongs to one row only. -/
theorem pcb_eq_iff {i j : Instr} (hi : i.wf = true) (hli : i.layer = .block) (hj : j.wf = true) (hlj : j.layer = .block) :
    i.pcb = j.pcb ↔ i = j :=
  ⟨fun h => by rw [← decodeBlock_pcb hi hli, h, decodeBlock_pcb hj hlj], fun h => congrArg Instr.pcb h⟩

/-- Settles O48: of the returned rows only the response has its PCB. -/
theorem returnedBlockEndsAReset : Obligations.ReturnedBlockEndsAReset := by
  unfold Obligations.ReturnedBlockEndsAReset
  intro i s left hwf hret
  obtain ⟨hl, -⟩ := blockPass_of_isReturned hret
  constructor
  case left =>
    intro hrecv
    rw [exec_returned hret hrecv]
    by_cases hi : i = .sSoftResetResponse
    · subst hi
      rfl
    · have hpcb : i.pcb ≠ 0xEF#8 := mt (pcb_eq_iff hwf hl (j := .sSoftResetResponse) rfl rfl).1 hi
      rw [if_neg hi]
      exact congrArg Host.Outcome.next (finish_softReset_other hpcb _)
  case right =>
    intro hrecv
    have hpcb : i.pcb = 0xE6#8 ↔ i = .sResetResponse := pcb_eq_iff hwf hl (j := .sResetResponse) rfl rfl
    rw [exec_returned hret hrecv, finish_hardReset]
    simp only [hpcb]
    rfl

/-! ## Resends, WTX responses and the limits (R251, R256, R258) -/

/-- The rows that call for a resend have the retransmit pass. -/
theorem exec_asksResend {i : Instr} (h : i.asksResend = true) (s : State) :
    exec i s = .next (receiveBlock passRError i.pcb s) := by
  cases i with
  | rBlockCrcError | rBlockOtherError | rBlockUnnamedError => rfl
  | _ => cases h

theorem asksResend_of_mem {i : Instr} {nr i5 : Bool} {i32 : BitVec 2}
    (h : i ∈ [Instr.rBlockCrcError nr i5 i32, .rBlockOtherError nr i5 i32, .rBlockUnnamedError nr i5 i32]) :
    i.asksResend = true := by
  simp only [List.mem_cons, List.not_mem_nil, or_false] at h
  rcases h with rfl | rfl | rfl <;> rfl

theorem exec_sWtxRequest (s : State) :
    exec .sWtxRequest s = .next (receiveBlock passWtxRequest Instr.sWtxRequest.pcb s) := rfl

/-- Settles O49. -/
theorem errorBlockResendsTheCachedFrame : Obligations.ErrorBlockResendsTheCachedFrame := by
  unfold Obligations.ErrorBlockResendsTheCachedFrame
  intro s c left nr i5 i32 d rest hrecv hlatch htx h i hi
  rw [exec_asksResend (asksResend_of_mem hi), receiveBlock_again hrecv (passRError_acked hlatch htx h left)]
  rfl

/-- Settles O50: the echo byte is drawn or read, and the response goes past TXBUF or through it. -/
theorem wtxRequestIsAnswered : Obligations.WtxRequestIsAnswered := by
  unfold Obligations.WtxRequestIsAnswered
  intro s c left d rest hrecv h
  have hexec : exec .sWtxRequest s = .next { afterWtx (wtxEcho s).1 rest (wtxEcho s).2 with receiving := some ⟨c, left⟩ } := by
    rw [exec_sWtxRequest, receiveBlock_again hrecv (passWtxRequest_acked h left)]
    rfl
  obtain ⟨k, hk⟩ := wtxEcho_state s
  refine ⟨(wtxEcho s).1, (wtxEcho s).2.echoDraws, fun hlen => ?_, fun hlen => ?_, fun hcache => ?_, fun hcache => ?_⟩
  · have hsome : 1 ≤ frameLen s.rxbuf := hlen
    rw [wtxEcho, if_pos hsome]
    exact ⟨rfl, rfl⟩
  · have hnone : ¬ 1 ≤ frameLen s.rxbuf := by
      rw [frameLen, hlen]
      decide
    rw [wtxEcho, if_neg hnone]
    exact ⟨rfl, rfl⟩
  · have hcache' : (wtxEcho s).2.params.wtxCache = .bypass := by rw [hk]; exact hcache
    rw [hexec, afterWtx, hcache', hk]
    rfl
  · have hcache' : (wtxEcho s).2.params.wtxCache = .overwrite := by rw [hk]; exact hcache
    rw [hexec, afterWtx, hcache', hk]
    rfl

theorem passRError_zero (s : State) : passRError 0 s = (.done .errWtxLimit, s) := rfl

theorem passWtxRequest_zero (s : State) : passWtxRequest 0 s = (.done .errWtxLimit, s) := rfl

/-- Settles O51. -/
theorem blocksStopAtTheLimits : Obligations.BlocksStopAtTheLimits := by
  unfold Obligations.BlocksStopAtTheLimits
  intro s c left nr i5 i32
  refine ⟨fun hrecv => ?_, fun i hi => ⟨fun hrecv => ?_, fun hrecv hlatch => ?_⟩⟩
  · rw [exec_sWtxRequest, receiveBlock_done hrecv (passWtxRequest_zero s)]
    rfl
  · rw [exec_asksResend (asksResend_of_mem hi), receiveBlock_done hrecv (passRError_zero s)]
    rfl
  · rw [exec_asksResend (asksResend_of_mem hi), receiveBlock_done hrecv (passRError_latched hlatch left)]
    rfl

/-! ## The receive phase and the procedures of RecvBlock (log 6) -/

/-- The state with another receive in progress, or none. -/
def withReceiving (rc : Option Receive) (s : State) : State := { s with receiving := rc }

theorem xferRetry_congr {s t : State} (hsegt : s.segtUs = t.segtUs) (hmpot : s.mpotUs = t.mpotUs)
    (haddr : s.i2cAddr = t.i2cAddr) (dir : BusDir) (n : Nat) (data : List Byte) (left : Nat) (l : Link) :
    xferRetry s dir n data left l = xferRetry t dir n data left l := by
  induction left generalizing l with
  | zero => rfl
  | succ left ih => simp only [xferRetry, hsegt, hmpot, haddr, ih]

/-- A transfer does not look at the receive phase, and leaves it. -/
theorem xfer_withReceiving (rc : Option Receive) (dir : BusDir) (n : Nat) (data : List Byte) (s : State) :
    xfer dir n data (withReceiving rc s) =
      ((xfer dir n data s).1, (xfer dir n data s).2.1, withReceiving rc (xfer dir n data s).2.2) := by
  have hretry : xferRetry (withReceiving rc s) dir n data (maxRetries (withReceiving rc s)) (withReceiving rc s).link =
      xferRetry s dir n data (maxRetries s) s.link :=
    xferRetry_congr (s := withReceiving rc s) (t := s) rfl rfl rfl dir n data _ _
  rw [xfer_eq, hretry]
  rfl

/-- A procedure that does the same, and leaves the same state, whatever receive is in progress. -/
def IgnoresReceive {α : Type} (f : State → α × State) : Prop :=
  ∀ rc s, f (withReceiving rc s) = ((f s).1, withReceiving rc (f s).2)

/-- A transfer and what is done with its status ignore the receive phase if the parts do. -/
theorem ignoresReceive_xfer {α : Type} {dir : BusDir} {n : State → Nat} {data : State → List Byte} {g : State → State}
    {k : Status × List Byte × State → α × State} (hn : ∀ rc s, n (withReceiving rc s) = n s)
    (hdata : ∀ rc s, data (withReceiving rc s) = data s) (hg : ∀ rc s, g (withReceiving rc s) = withReceiving rc (g s))
    (hk : ∀ rc st d s, k (st, d, withReceiving rc s) = ((k (st, d, s)).1, withReceiving rc (k (st, d, s)).2)) :
    IgnoresReceive fun s => k (xfer dir (n s) (data s) (g s)) := by
  intro rc s
  simp only [hn, hdata, hg, xfer_withReceiving, hk]

theorem frameSend_ignoresReceive (pcb : Byte) (inf : List Byte) : IgnoresReceive (frameSend pcb inf) :=
  ignoresReceive_xfer (n := fun s => (loadTx pcb inf s).txlen) (data := fun s => txFrame (loadTx pcb inf s))
    (g := loadTx pcb inf)
    (k := fun r => match r with
      | (.ok, _, s2) => (.ok, { s2 with latch := latchAfterSend s2 })
      | (e, _, s2) => (e, s2))
    (fun _ _ => rfl) (fun _ _ => rfl) (fun _ _ => rfl) fun _ st _ _ => by cases st <;> rfl

theorem wtxRespond_ignoresReceive (e : Byte) : IgnoresReceive (wtxRespond e) := by
  intro rc s
  have hparams : (withReceiving rc s).params = s.params := rfl
  rw [wtxRespond, wtxRespond, hparams]
  cases s.params.wtxCache with
  | bypass => simp only [xfer_withReceiving]
  | overwrite => exact frameSend_ignoresReceive _ _ rc s

theorem retransmit_ignoresReceive : IgnoresReceive retransmit := by
  intro rc s
  have hlatch : (withReceiving rc s).latch = s.latch := rfl
  have hresend := ignoresReceive_xfer (dir := .write) (n := State.txlen) (data := txFrame)
    (g := fun s => { s with latch := true }) (k := fun r => (r.1, r.2.2))
    (fun _ _ => rfl) (fun _ _ => rfl) (fun _ _ => rfl) (fun _ _ _ _ => rfl) rc s
  rw [retransmit, retransmit, hlatch]
  split_ifs
  · rfl
  · exact hresend

theorem wtxEcho_ignoresReceive : IgnoresReceive wtxEcho := by
  intro rc s
  have hlen : frameLen (withReceiving rc s).rxbuf = frameLen s.rxbuf := rfl
  rw [wtxEcho, wtxEcho, hlen]
  split <;> rfl

theorem acceptFrame_ignoresReceive : IgnoresReceive acceptFrame := by
  intro rc s
  have hframe : rxFrame (withReceiving rc s) = rxFrame s := rfl
  simp only [acceptFrame, hframe]
  split <;> rfl

theorem afterHeader_ignoresReceive : IgnoresReceive afterHeader := by
  intro rc s
  have hlen : frameLen (withReceiving rc s).rxbuf = frameLen s.rxbuf := rfl
  have hrest := ignoresReceive_xfer (dir := .read) (n := fun s => frameLen s.rxbuf) (data := fun _ => []) (g := id)
    (k := fun r => match r with
      | (.ok, d, s1) => acceptFrame (storeRx 5 d s1)
      | (e, _, s1) => (e, s1))
    (fun _ _ => rfl) (fun _ _ => rfl) (fun _ _ => rfl) (fun rc st d s => by
      cases st with
      | ok => exact acceptFrame_ignoresReceive rc (storeRx 5 d s)
      | _ => rfl) rc s
  rw [afterHeader, afterHeader, hlen]
  split_ifs
  · rfl
  · exact acceptFrame_ignoresReceive rc s
  · exact hrest

theorem readBlock_ignoresReceive : IgnoresReceive readBlock :=
  ignoresReceive_xfer (dir := .read) (n := fun _ => 5) (data := fun _ => []) (g := clearRx)
    (k := fun r => match r with
      | (.ok, h, s1) => afterHeader (storeRx 0 h s1)
      | (e, _, s1) => (e, s1))
    (fun _ _ => rfl) (fun _ _ => rfl) (fun _ _ => rfl) fun rc st h s => by
      cases st with
      | ok => exact afterHeader_ignoresReceive rc (storeRx 0 h s)
      | _ => rfl

theorem passWtxRequest_ignoresReceive (left : Nat) : IgnoresReceive (passWtxRequest left) := by
  intro rc s
  rw [passWtxRequest, passWtxRequest, wtxEcho_ignoresReceive, wtxRespond_ignoresReceive]
  rcases wtxRespond (wtxEcho s).1 (wtxEcho s).2 with ⟨st, s1⟩
  split_ifs
  · rfl
  · cases st <;> rfl

theorem passRError_ignoresReceive (left : Nat) : IgnoresReceive (passRError left) := by
  intro rc s
  rw [passRError, passRError, retransmit_ignoresReceive]
  rcases retransmit s with ⟨st, s1⟩
  split_ifs
  · rfl
  · cases st <;> rfl

theorem pass_ignoresReceive (pcb : Byte) (left : Nat) : IgnoresReceive (pass pcb left) := by
  intro rc s
  rw [pass, pass]
  split_ifs
  · exact passWtxRequest_ignoresReceive left rc s
  · exact passRError_ignoresReceive left rc s
  · rfl

/-! ## The receive block by block (log 6) -/

/-- A step of a receive whose block cannot be read ends the command (R251, R324). -/
theorem step_of_readBlock_error {s s1 : State} {rc : Receive} {e : Status} (hpin : s.resetPin = false)
    (hrecv : s.receiving = some rc) (he : e ≠ .ok) (hread : readBlock s = (e, s1)) :
    step s = .next (raise e { s1 with receiving := none }) := by
  simp only [step, hpin, hrecv, hread, Bool.false_eq_true, if_false]
  cases e with
  | ok => exact absurd rfl he
  | _ => rfl

/-- A run goes on from the state after its first step. -/
theorem coreRun_succ (M : Host.Core) {s t : M.State} (h : M.step s = .next t) (k : Nat) : M.run (k + 1) s = M.run k t := by
  rw [Host.Core.run, h]

theorem run_succ {s t : State} (h : step s = .next t) (k : Nat) : core.run (k + 1) s = core.run k t :=
  coreRun_succ core h k

theorem run_zero (s : State) : core.run 0 s = .next s := rfl

theorem readBlock_resetPin (s : State) : (readBlock s).2.resetPin = s.resetPin := by
  obtain ⟨_, _, _, _, _, h⟩ := readBlock_state s
  rw [h]

theorem pass_resetPin (pcb : Byte) (left : Nat) (s : State) : (pass pcb left s).2.resetPin = s.resetPin := by
  obtain ⟨_, _, _, _, _, h⟩ := pass_state pcb left s
  rw [h]

theorem pass_rxbuf (pcb : Byte) (left : Nat) (s : State) : (pass pcb left s).2.rxbuf = s.rxbuf := by
  obtain ⟨_, _, _, _, _, h⟩ := pass_state pcb left s
  rw [h]

/-- The end of a command's receive from the answer of RecvBlock. -/
def finishReceive (c : Caller) (r : Status × State) : State :=
  finish c r.1 (byteAt r.2.rxbuf 1) (withReceiving none r.2)

/-- A step of a receive whose block is read is the pass of its PCB, in the receive phase. -/
theorem step_withReceiving {s s1 : State} {rc : Receive} (hpin : s.resetPin = false) (hread : readBlock s = (.ok, s1)) :
    step (withReceiving (some rc) s) =
      .next (receiveBlock (pass (byteAt s1.rxbuf 1)) (byteAt s1.rxbuf 1) (withReceiving (some rc) s1)) := by
  have hread' := readBlock_ignoresReceive (some rc) s
  rw [hread] at hread'
  rw [step_of_readBlock (s := withReceiving (some rc) s) hpin rfl hread']
  exact blockRowsAgreeWithTheTests _ _

/-- One step of a receive: it ends as RecvBlock does, or it goes on as RecvBlock does, with one re-entry fewer. -/
theorem step_receive (c : Caller) (left : Nat) {s : State} (hpin : s.resetPin = false) :
    step (withReceiving (some ⟨c, left⟩) s) = .next (finishReceive c (recvBlock left s)) ∨
      ∃ left' t, left = left' + 1 ∧ t.resetPin = false ∧ recvBlock left s = recvBlock left' t ∧
        step (withReceiving (some ⟨c, left⟩) s) = .next (withReceiving (some ⟨c, left'⟩) t) := by
  rcases hread : readBlock s with ⟨e, s1⟩
  by_cases he : e = .ok
  case neg =>
    have hread' := readBlock_ignoresReceive (some ⟨c, left⟩) s
    rw [hread] at hread'
    left
    rw [step_of_readBlock_error (s := withReceiving (some ⟨c, left⟩) s) hpin rfl he hread', recvBlock_error hread he,
      finishReceive, finish_of_ne_ok he]
    rfl
  case pos =>
    subst he
    have hpin1 : s1.resetPin = false := by rw [← hpin, ← readBlock_resetPin s, hread]
    have hphase := pass_ignoresReceive (byteAt s1.rxbuf 1) left (some ⟨c, left⟩) s1
    have hrxbuf := pass_rxbuf (byteAt s1.rxbuf 1) left s1
    have hpin2 := pass_resetPin (byteAt s1.rxbuf 1) left s1
    rcases hpass : pass (byteAt s1.rxbuf 1) left s1 with ⟨p, s2⟩
    rw [hpass] at hphase hrxbuf hpin2
    rw [step_withReceiving hpin hread]
    cases p with
    | done st =>
      left
      rw [receiveBlock_done (s := withReceiving (some ⟨c, left⟩) s1) rfl hphase, recvBlock_done hread hpass, finishReceive,
        hrxbuf]
      rfl
    | again =>
      right
      cases left with
      | zero => exact absurd (by rw [hpass]) (pass_zero (byteAt s1.rxbuf 1) s1)
      | succ left' =>
        refine ⟨left', s2, rfl, hpin2.trans hpin1, recvBlock_again hread hpass, ?_⟩
        rw [receiveBlock_again (s := withReceiving (some ⟨c, left' + 1⟩) s1) rfl hphase]
        rfl

/-- By steps, a receive with `left` re-entries ends as RecvBlock with `left` re-entries does. -/
theorem run_receive (c : Caller) (left : Nat) {s : State} (hpin : s.resetPin = false) :
    ∃ k, k ≤ left ∧
      core.run (k + 1) (withReceiving (some ⟨c, left⟩) s) = .next (finishReceive c (recvBlock left s)) := by
  induction left generalizing s with
  | zero =>
    rcases step_receive c 0 hpin with hend | ⟨left', t, hleft, -⟩
    · exact ⟨0, le_rfl, by rw [run_succ hend, run_zero]⟩
    · cases hleft
  | succ left ih =>
    rcases step_receive c (left + 1) hpin with hend | ⟨left', t, hleft, hpin', hrecv, hstep⟩
    · exact ⟨0, Nat.zero_le _, by rw [run_succ hend, run_zero]⟩
    · cases hleft
      obtain ⟨k, hk, hrun⟩ := ih hpin'
      exact ⟨k + 1, Nat.succ_le_succ hk, by rw [run_succ hstep, hrun, hrecv]⟩

/-- Outside a receive the two ends are one. -/
theorem finishReceive_eq_runReceive (c : Caller) {s : State} (hrecv : s.receiving = none) :
    finishReceive c (recvBlock (maxRetries s) s) = runReceive c s := by
  have hsame : withReceiving none (recvBlock (maxRetries s) s).2 = (recvBlock (maxRetries s) s).2 := by
    obtain ⟨_, _, _, _, _, _, _, _, _, h⟩ := recvBlock_state (maxRetries s) s
    rw [h, withReceiving, ← hrecv]
  rw [finishReceive, hsame, runReceive_eq]

/-- Settles O45. -/
theorem receiveByStepsIsReceiveAtOnce : Obligations.ReceiveByStepsIsReceiveAtOnce := by
  unfold Obligations.ReceiveByStepsIsReceiveAtOnce
  intro c s hpin hrecv
  obtain ⟨k, hk, hrun⟩ := run_receive c (maxRetries s) hpin
  rw [finishReceive_eq_runReceive c hrecv] at hrun
  exact ⟨k, hk, hrun, fun hc => by rw [hc, exec_recv_legal]⟩

end Sys2Proof.Machine
end

section
/-!
SUPPORT. What an instruction adds to the bus trace (43_arbiter.md R202, R205, R206, R207): transfers run to their ends one after the
other, and how many of them (70_reset_and_hazards.md R380).
-/

namespace Sys2Proof.Machine

/-! ## Sequences of transfers -/

/-- The events of `k` transfers run to their ends, of which at most the last has failed; `ok` says that none has. -/
inductive TransferSeq (segt mpot : BitVec 16) (addr : BitVec 7) (most : Nat) : Nat → Bool → List BusEvent → Prop where
  | nil : TransferSeq segt mpot addr most 0 true []
  | failed (dir : BusDir) (n : Nat) (data : List Byte) (last : List BusEvent)
      (h : TransferTrace segt mpot addr dir n data most false last) : TransferSeq segt mpot addr most 1 false last
  | more (dir : BusDir) (n : Nat) (data : List Byte) (first rest : List BusEvent) (k : Nat) (ok : Bool)
      (h : TransferTrace segt mpot addr dir n data most true first) (hrest : TransferSeq segt mpot addr most k ok rest) :
      TransferSeq segt mpot addr most (k + 1) ok (first ++ rest)

section
variable {segt mpot : BitVec 16} {addr : BitVec 7} {most : Nat}

theorem TransferSeq.transfersTrace {k : Nat} {ok : Bool} {ev : List BusEvent}
    (h : TransferSeq segt mpot addr most k ok ev) : TransfersTrace segt mpot addr most ev := by
  induction h with
  | nil => exact .none
  | failed dir n data last h => exact .failed dir n data last h
  | more dir n data first rest k ok h _ ih => exact .more dir n data first rest h ih

/-- After transfers that have all ended OK others can follow. -/
theorem TransferSeq.append {k k' : Nat} {ok ok' : Bool} {ev ev' : List BusEvent}
    (h : TransferSeq segt mpot addr most k ok ev) (hok : ok = true) (h' : TransferSeq segt mpot addr most k' ok' ev') :
    TransferSeq segt mpot addr most (k + k') ok' (ev ++ ev') := by
  induction h with
  | nil => rwa [Nat.zero_add, List.nil_append]
  | failed => cases hok
  | more dir n data first rest k ok h _ ih =>
    rw [Nat.add_right_comm, List.append_assoc]
    exact .more dir n data first _ _ _ h (ih hok)

theorem TransferSeq.of_transfer {dir : BusDir} {n : Nat} {data : List Byte} {ok : Bool} {ev : List BusEvent}
    (h : TransferTrace segt mpot addr dir n data most ok ev) : TransferSeq segt mpot addr most 1 ok ev := by
  cases ok with
  | false => exact .failed dir n data ev h
  | true =>
    rw [← List.append_nil ev]
    exact .more dir n data ev [] 0 true h .nil

/-- Each transfer makes at most `most` attempts (R212). -/
theorem TransferSeq.attempts_le {k : Nat} {ok : Bool} {ev : List BusEvent}
    (h : TransferSeq segt mpot addr most k ok ev) : attempts ev ≤ k * most := by
  induction h with
  | nil => exact Nat.zero_le _
  | failed dir n data last h => rw [Nat.one_mul]; exact h.attempts_bounds.2
  | more dir n data first rest k ok h _ ih =>
    rw [attempts_append, Nat.add_mul, Nat.one_mul, Nat.add_comm]
    exact Nat.add_le_add ih h.attempts_bounds.2

end

/-- From `s` to `t` the trace grows by at most `k` transfers, timed as `s` says; none has failed if `ok`. -/
def AddsTransfers (k : Nat) (ok : Bool) (s t : State) : Prop :=
  ∃ ev j b, t.link.trace = s.link.trace ++ ev ∧ j ≤ k ∧ (ok = true → b = true) ∧
    TransferSeq s.segtUs s.mpotUs s.i2cAddr (maxRetries s) j b ev

/-- The registers that time and address a transfer (R205). -/
def SameTiming (s t : State) : Prop :=
  t.segtUs = s.segtUs ∧ t.mpotUs = s.mpotUs ∧ t.bwtMs = s.bwtMs ∧ t.i2cAddr = s.i2cAddr

/-- A procedure's part in the trace: at most `k` transfers, with the timing left as it is. -/
structure Talks (k : Nat) (ok : Bool) (s t : State) : Prop where
  timing : SameTiming s t
  adds : AddsTransfers k ok s t

theorem Talks.silent {s t : State} (htiming : SameTiming s t) (htrace : t.link.trace = s.link.trace) (ok : Bool) :
    Talks 0 ok s t :=
  ⟨htiming, [], 0, true, by rw [htrace, List.append_nil], le_rfl, fun _ => rfl, .nil⟩

theorem Talks.mono {k k' : Nat} {ok ok' : Bool} {s t : State} (h : Talks k ok s t) (hk : k ≤ k')
    (hok : ok' = true → ok = true) : Talks k' ok' s t := by
  obtain ⟨htiming, ev, j, b, htrace, hj, hb, hseq⟩ := h
  exact ⟨htiming, ev, j, b, htrace, hj.trans hk, fun h => hb (hok h), hseq⟩

theorem Talks.trans {k k' : Nat} {ok : Bool} {s t u : State} (h : Talks k true s t) (h' : Talks k' ok t u) :
    Talks (k + k') ok s u := by
  obtain ⟨⟨hsegt, hmpot, hbwt, haddr⟩, ev, j, b, htrace, hj, hb, hseq⟩ := h
  obtain ⟨⟨hsegt', hmpot', hbwt', haddr'⟩, ev', j', b', htrace', hj', hb', hseq'⟩ := h'
  rw [hsegt, hmpot, haddr, maxRetries_congr hbwt hmpot] at hseq'
  refine ⟨⟨hsegt'.trans hsegt, hmpot'.trans hmpot, hbwt'.trans hbwt, haddr'.trans haddr⟩, ev ++ ev', j + j', b', ?_,
    Nat.add_le_add hj hj', hb', hseq.append (hb rfl) hseq'⟩
  rw [htrace', htrace, List.append_assoc]

/-! ## What each procedure adds -/

theorem xfer_talks (dir : BusDir) (n : Nat) (data : List Byte) (s : State) :
    Talks 1 (decide ((xfer dir n data s).1 = .ok)) s (xfer dir n data s).2.2 := by
  obtain ⟨ev, htrace, htransfer⟩ := xfer_transferTrace dir n data s
  exact ⟨⟨rfl, rfl, rfl, rfl⟩, ev, 1, _, htrace, le_rfl, id, .of_transfer htransfer⟩

/-- FrameSend by its transfer: the status is the transfer's, and success sets the latch as P_LATCH_CLEAR says (R232). -/
theorem frameSend_eq (pcb : Byte) (inf : List Byte) (s : State) :
    frameSend pcb inf s =
      let r := xfer .write (loadTx pcb inf s).txlen (txFrame (loadTx pcb inf s)) (loadTx pcb inf s)
      (r.1, if r.1 = .ok then { r.2.2 with latch := latchAfterSend r.2.2 } else r.2.2) := by
  rw [frameSend]
  rcases xfer .write (loadTx pcb inf s).txlen (txFrame (loadTx pcb inf s)) (loadTx pcb inf s) with ⟨st, d, s1⟩
  cases st <;> rfl

/-- What is written beside the bus port and the timing does not count. -/
theorem Talks.congr_right {k : Nat} {ok : Bool} {s t u : State} (h : Talks k ok s t) (htiming : SameTiming t u)
    (htrace : u.link.trace = t.link.trace) : Talks k ok s u := by
  obtain ⟨⟨hsegt, hmpot, hbwt, haddr⟩, ev, j, b, hev, hrest⟩ := h
  obtain ⟨hsegt', hmpot', hbwt', haddr'⟩ := htiming
  exact ⟨⟨hsegt'.trans hsegt, hmpot'.trans hmpot, hbwt'.trans hbwt, haddr'.trans haddr⟩, ev, j, b, htrace.trans hev, hrest⟩

theorem Talks.congr_left {k : Nat} {ok : Bool} {s t u : State} (h : Talks k ok t u) (htiming : SameTiming s t)
    (htrace : t.link.trace = s.link.trace) : Talks k ok s u := by
  have := (Talks.silent htiming htrace true).trans h
  rwa [Nat.zero_add] at this

theorem frameSend_talks (pcb : Byte) (inf : List Byte) (s : State) :
    Talks 1 (decide ((frameSend pcb inf s).1 = .ok)) s (frameSend pcb inf s).2 := by
  rw [frameSend_eq]
  have hx := xfer_talks .write (loadTx pcb inf s).txlen (txFrame (loadTx pcb inf s)) (loadTx pcb inf s)
  refine (hx.congr_left (s := s) ⟨rfl, rfl, rfl, rfl⟩ rfl).congr_right ?_ ?_
  · simp only
    split_ifs <;> exact ⟨rfl, rfl, rfl, rfl⟩
  · simp only
    split_ifs <;> rfl

theorem wtxRespond_talks (e : Byte) (s : State) :
    Talks 1 (decide ((wtxRespond e s).1 = .ok)) s (wtxRespond e s).2 := by
  rw [wtxRespond]
  cases s.params.wtxCache with
  | bypass => exact xfer_talks _ _ _ s
  | overwrite => exact frameSend_talks _ _ s

theorem retransmit_talks (s : State) : Talks 1 (decide ((retransmit s).1 = .ok)) s (retransmit s).2 := by
  rw [retransmit]
  split_ifs
  · exact (Talks.silent ⟨rfl, rfl, rfl, rfl⟩ rfl true).mono (Nat.zero_le _) fun _ => rfl
  · exact (xfer_talks .write s.txlen (txFrame s) { s with latch := true }).congr_left ⟨rfl, rfl, rfl, rfl⟩ rfl

theorem acceptFrame_talks (ok : Bool) (s : State) : Talks 0 ok s (acceptFrame s).2 := by
  obtain ⟨_, _, h⟩ := acceptFrame_state s
  rw [h]
  refine .silent ?_ ?_ ok
  · exact ⟨rfl, rfl, rfl, rfl⟩
  · rfl

theorem afterHeader_talks (s : State) : Talks 1 (decide ((afterHeader s).1 = .ok)) s (afterHeader s).2 := by
  have hx := xfer_talks .read (frameLen s.rxbuf) [] s
  rw [afterHeader]
  split_ifs
  · exact (Talks.silent ⟨rfl, rfl, rfl, rfl⟩ rfl true).mono (Nat.zero_le _) fun _ => rfl
  · exact (acceptFrame_talks true s).mono (Nat.zero_le _) fun _ => rfl
  · rcases hxfer : xfer .read (frameLen s.rxbuf) [] s with ⟨st, d, s1⟩
    rw [hxfer] at hx
    cases st with
    | ok =>
      exact ((hx.congr_right (u := storeRx 5 d s1) ⟨rfl, rfl, rfl, rfl⟩ rfl).trans (acceptFrame_talks true _)).mono le_rfl
        fun _ => rfl
    | _ => exact hx

theorem readBlock_talks (s : State) : Talks 2 (decide ((readBlock s).1 = .ok)) s (readBlock s).2 := by
  have hx := (xfer_talks .read 5 [] (clearRx s)).congr_left (s := s) ⟨rfl, rfl, rfl, rfl⟩ rfl
  rcases hxfer : xfer .read 5 [] (clearRx s) with ⟨st, h, s1⟩
  rw [hxfer] at hx
  by_cases hst : st = .ok
  · subst hst
    have hread : readBlock s = afterHeader (storeRx 0 h s1) := by
      rw [readBlock, hxfer]
      rfl
    rw [hread]
    exact (hx.congr_right (u := storeRx 0 h s1) ⟨rfl, rfl, rfl, rfl⟩ rfl).trans (afterHeader_talks _)
  · rw [readBlock_of_failed_header hst hxfer]
    exact hx.mono (by decide) id

/-- Whether a pass leaves the receive without an error (R251). -/
def passOk : Pass → Bool
  | .again => true
  | .done st => decide (st = .ok)

theorem passWtxRequest_talks (left : Nat) (s : State) :
    Talks (min left 1) (passOk (passWtxRequest left s).1) s (passWtxRequest left s).2 := by
  cases left with
  | zero => exact .silent ⟨rfl, rfl, rfl, rfl⟩ rfl _
  | succ left =>
    have hone : min (left + 1) 1 = 1 := Nat.min_eq_right (Nat.le_add_left 1 left)
    obtain ⟨k, hk⟩ := wtxEcho_state s
    have hr := (wtxRespond_talks (wtxEcho s).1 (wtxEcho s).2).congr_left (s := s)
      (by rw [hk]; exact ⟨rfl, rfl, rfl, rfl⟩) (by rw [hk])
    rw [passWtxRequest, if_neg left.succ_ne_zero, hone]
    rcases hresp : wtxRespond (wtxEcho s).1 (wtxEcho s).2 with ⟨st, s1⟩
    rw [hresp] at hr
    cases st <;> exact hr

theorem passRError_talks (left : Nat) (s : State) :
    Talks (min left 1) (passOk (passRError left s).1) s (passRError left s).2 := by
  cases left with
  | zero => exact .silent ⟨rfl, rfl, rfl, rfl⟩ rfl _
  | succ left =>
    have hone : min (left + 1) 1 = 1 := Nat.min_eq_right (Nat.le_add_left 1 left)
    have hr := retransmit_talks s
    rw [passRError, if_neg left.succ_ne_zero, hone]
    rcases hresend : retransmit s with ⟨st, s1⟩
    rw [hresend] at hr
    cases st <;> exact hr

/-- A pass makes one transfer at most, and none at the limit (R251). -/
theorem pass_talks (pcb : Byte) (left : Nat) (s : State) :
    Talks (min left 1) (passOk (pass pcb left s).1) s (pass pcb left s).2 := by
  rw [pass]
  split_ifs
  · exact passWtxRequest_talks left s
  · exact passRError_talks left s
  · exact (Talks.silent ⟨rfl, rfl, rfl, rfl⟩ rfl _).mono (Nat.zero_le _) id

/-- RecvBlock with `left` re-entries reads at most `left + 1` blocks and answers at most `left` of them (R251, R380). -/
theorem recvBlock_talks (left : Nat) (s : State) :
    Talks (3 * left + 2) (decide ((recvBlock left s).1 = .ok)) s (recvBlock left s).2 := by
  fun_induction recvBlock left s with
  | case1 left s s1 hread st s2 hpass =>
    have hr := readBlock_talks s
    have hp := pass_talks (byteAt s1.rxbuf 1) left s1
    rw [hread] at hr
    rw [hpass] at hp
    exact (hr.trans hp).mono (by omega) id
  | case2 s s1 hread s2 hpass => exact absurd (by rw [hpass]) (pass_zero (byteAt s1.rxbuf 1) s1)
  | case3 s s1 hread s2 left hpass ih =>
    have hr := readBlock_talks s
    have hp := pass_talks (byteAt s1.rxbuf 1) (left + 1) s1
    rw [hread] at hr
    rw [hpass] at hp
    exact ((hr.trans hp).trans ih).mono (by omega) id
  | case4 left s e s1 he hread =>
    have hr := readBlock_talks s
    rw [hread] at hr
    exact hr.mono (by omega) id

theorem finish_link (c : Caller) (st : Status) (pcb : Byte) (s : State) :
    SameTiming s (finish c st pcb s) ∧ (finish c st pcb s).link = s.link := by
  obtain ⟨_, _, _, h⟩ := finish_state c st pcb s
  rw [h]
  exact ⟨⟨rfl, rfl, rfl, rfl⟩, rfl⟩

theorem runReceive_talks (c : Caller) (s : State) : Talks (3 * maxRetries s + 2) false s (runReceive c s) := by
  obtain ⟨htiming, hlink⟩ := finish_link c (recvBlock (maxRetries s) s).1
    (byteAt (recvBlock (maxRetries s) s).2.rxbuf 1) (recvBlock (maxRetries s) s).2
  exact ((recvBlock_talks (maxRetries s) s).congr_right htiming (by rw [hlink])).mono le_rfl nofun

/-! ## What each instruction adds -/

/-- The most transfers of a command with N = MAX_RETRIES: its own frame and its receive (R380). -/
def transferBound (n : Nat) (i : Instr) : Nat :=
  (if i.sends then 1 else 0) + (if i.receives then 3 * n + 2 else 0)

theorem afterSent_talks (c : Option Caller) (s : State) :
    Talks (if c.isSome then 3 * maxRetries s + 2 else 0) false s (afterSent c s) := by
  cases c with
  | none => exact Talks.silent (s := s) (t := complete .ok [] s) ⟨rfl, rfl, rfl, rfl⟩ rfl false
  | some c => exact runReceive_talks c s

theorem sent_talks {i : Instr} (hsends : i.sends = true) (pcb : Byte) (inf : List Byte) (s : State) :
    Talks (transferBound (maxRetries s) i) false s
      (afterFrameSend (afterSent (caller i)) (frameSend pcb inf (beforeSent i s))) := by
  have hbefore : SameTiming s (beforeSent i s) ∧ (beforeSent i s).link = s.link := by
    cases i <;> exact ⟨⟨rfl, rfl, rfl, rfl⟩, rfl⟩
  obtain ⟨htiming, hlink⟩ := hbefore
  have hsend := (frameSend_talks pcb inf (beforeSent i s)).congr_left htiming (by rw [hlink])
  refine afterFrameSend_induct (P := Talks (transferBound (maxRetries s) i) false s) (fun hok => ?_) (fun _ => ?_)
  · rw [decide_eq_true hok] at hsend
    obtain ⟨-, hmpot, hbwt, -⟩ := hsend.timing
    have hafter := afterSent_talks (caller i) (frameSend pcb inf (beforeSent i s)).2
    rw [maxRetries_congr hbwt hmpot, caller_isSome] at hafter
    have hboth := hsend.trans hafter
    rwa [transferBound, hsends, if_pos rfl]
  · refine (hsend.mono (k' := transferBound (maxRetries s) i) (ok' := false) ?_ nofun).congr_right ⟨rfl, rfl, rfl, rfl⟩ rfl
    rw [transferBound, hsends, if_pos rfl]
    exact Nat.le_add_right 1 _

theorem commandRun_adds {i : Instr} {s t : State} (h : CommandRun s i t) :
    AddsTransfers (transferBound (maxRetries s) i) false s t := by
  have hnone {u : State} (hu : u.link = s.link) : AddsTransfers (transferBound (maxRetries s) i) false s u :=
    ⟨[], 0, true, by rw [hu, List.append_nil], Nat.zero_le _, nofun, .nil⟩
  cases h with
  | sent _ pcb inf hcheck hsent => exact (sent_talks (sends_of_sentBlock hsent) pcb inf s).adds
  | received arg data => exact ((runReceive_talks .recv s).mono (Nat.le_add_left _ _) id).adds
  | wroteReg arg data =>
    refine hnone ?_
    rw [complete_link, writeReg]
    split_ifs <;> rfl
  | refused | answered | clearedSeq | endedExchange => exact hnone rfl

theorem block_adds (i : Instr) (pcb : Byte) (s : State) : AddsTransfers 1 false s (receiveBlock (blockPass i) pcb s) := by
  obtain ⟨pcb', hpass⟩ := exists_pass_eq_blockPass i
  have hp (left : Nat) := (pass_talks pcb' left s).mono (k' := 1) (ok' := false) (Nat.min_le_right _ _) nofun
  rw [hpass]
  refine receiveBlock_induct (P := AddsTransfers 1 false s) (fun _ => ?_) (fun rc s1 _ h => ?_) (fun rc s1 st _ h => ?_)
  · exact ⟨[], 0, true, (List.append_nil _).symm, Nat.zero_le _, nofun, .nil⟩
  · have := hp rc.left
    rw [h] at this
    exact (this.congr_right ⟨rfl, rfl, rfl, rfl⟩ rfl).adds
  · have := hp rc.left
    rw [h] at this
    obtain ⟨htiming, hlink⟩ := finish_link rc.caller st pcb { s1 with receiving := none }
    exact (this.congr_right (u := finish rc.caller st pcb { s1 with receiving := none }) htiming (by rw [hlink])).adds

/-- Settles O17. -/
theorem everyAttemptIsSpacedAsTheArbiterSays : Obligations.EveryAttemptIsSpacedAsTheArbiterSays := by
  unfold Obligations.EveryAttemptIsSpacedAsTheArbiterSays
  intro i s t hexec
  rcases layer_command_or_block i with hl | hl
  · obtain ⟨ev, j, b, htrace, -, -, hseq⟩ := commandRun_adds (commandRun_of_exec hl hexec)
    exact ⟨ev, htrace, hseq.transfersTrace⟩
  · rw [exec_block hl] at hexec
    cases hexec
    obtain ⟨ev, j, b, htrace, -, -, hseq⟩ := block_adds i i.pcb s
    exact ⟨ev, htrace, hseq.transfersTrace⟩

/-- The table of R380 is the number of transfers times the attempts of each. -/
theorem transferBound_mul_le (n : Nat) (i : Instr) : transferBound n i * n ≤ attemptBound n i := by
  cases i with
  | sendI arg data =>
    have hsends : (Instr.sendI arg data).sends = true := rfl
    rw [transferBound, attemptBound, hsends, if_pos rfl]
    by_cases hm : arg.getLsbD 5 = true
    · have hreceives : (Instr.sendI arg data).receives = true := hm
      rw [if_pos hreceives, if_pos hm]
      exact le_of_eq (by ring)
    · have hreceives : ¬ (Instr.sendI arg data).receives = true := hm
      rw [if_neg hreceives, if_neg hm]
      exact le_of_eq (Nat.one_mul n)
  | sendR | sendS => exact le_of_eq (Nat.one_mul n)
  | recv => exact le_of_eq (show (0 + (3 * n + 2)) * n = 3 * n ^ 2 + 2 * n by ring)
  | softReset | hardReset => exact le_of_eq (show (1 + (3 * n + 2)) * n = 3 * n ^ 2 + 3 * n by ring)
  | _ => exact le_of_eq (Nat.zero_mul n)

/-- Settles O16. -/
theorem attemptsPerCommandAreBounded : Obligations.AttemptsPerCommandAreBounded := by
  unfold Obligations.AttemptsPerCommandAreBounded
  intro i s hl
  obtain ⟨t, hexec, hrun⟩ := exec_commandRun hl s
  obtain ⟨ev, j, b, htrace, hj, -, hseq⟩ := commandRun_adds hrun
  refine ⟨t, hexec, ?_⟩
  calc attempts t.link.trace
      = attempts s.link.trace + attempts ev := by rw [htrace, attempts_append]
    _ ≤ attempts s.link.trace + j * maxRetries s := Nat.add_le_add_left hseq.attempts_le _
    _ ≤ attempts s.link.trace + transferBound (maxRetries s) i * maxRetries s :=
      Nat.add_le_add_left (Nat.mul_le_mul_right _ hj) _
    _ ≤ attempts s.link.trace + attemptBound (maxRetries s) i := Nat.add_le_add_left (transferBound_mul_le _ i) _

end Sys2Proof.Machine
end

section
/-!
SUPPORT. Who writes the latch (10_state.md R34; 44_engine.md R232, R233, R258, R262): only a resend sets it, only a frame that
FrameSend has written clears it under PER_SEND.
-/

namespace Sys2Proof.Machine

/-! ## Runs and the latch -/

/-- If from `s` to `t` a set latch is cleared, then under PER_SEND and by an ACKed write, among the new events of the trace, of a
frame that `sent` names (R232). -/
def LatchCleared (sent : Byte → List Byte → Prop) (s t : State) : Prop :=
  s.latch = true → t.latch = false → s.params.latchClear = .perSend ∧
    ∃ pcb inf ev, sent pcb inf ∧ t.link.trace = s.link.trace ++ ev ∧
      .attempt .write s.i2cAddr (5 + inf.length) (buildFrame 0x5A#8 pcb inf) (.ack []) ∈ ev

/-- A procedure's part in the latch and the trace. -/
structure LatchRun (sent : Byte → List Byte → Prop) (s t : State) : Prop where
  addr : t.i2cAddr = s.i2cAddr
  params : t.params = s.params
  grows : ∃ ev, t.link.trace = s.link.trace ++ ev
  cleared : LatchCleared sent s t

theorem LatchRun.mono {sent sent' : Byte → List Byte → Prop} {s t : State} (h : LatchRun sent s t)
    (hsent : ∀ pcb inf, sent pcb inf → sent' pcb inf) : LatchRun sent' s t := by
  refine ⟨h.addr, h.params, h.grows, fun hs ht => ?_⟩
  obtain ⟨hper, pcb, inf, ev, hframe, hev⟩ := h.cleared hs ht
  exact ⟨hper, pcb, inf, ev, hsent pcb inf hframe, hev⟩

/-- A latch that is clear at the end was cleared in the first part or in the second. -/
theorem LatchRun.trans {sent : Byte → List Byte → Prop} {s t u : State} (h : LatchRun sent s t) (h' : LatchRun sent t u) :
    LatchRun sent s u := by
  obtain ⟨ev, hev⟩ := h.grows
  obtain ⟨ev', hev'⟩ := h'.grows
  refine ⟨h'.addr.trans h.addr, h'.params.trans h.params, ⟨ev ++ ev', by rw [hev', hev, List.append_assoc]⟩,
    fun hs hu => ?_⟩
  by_cases ht : t.latch = true
  · obtain ⟨hper, pcb, inf, ev2, hframe, hev2, hmem⟩ := h'.cleared ht hu
    rw [h.params] at hper
    rw [h.addr] at hmem
    exact ⟨hper, pcb, inf, ev ++ ev2, hframe, by rw [hev2, hev, List.append_assoc], List.mem_append_right _ hmem⟩
  · obtain ⟨hper, pcb, inf, ev1, hframe, hev1, hmem⟩ := h.cleared hs (Bool.eq_false_iff.2 ht)
    exact ⟨hper, pcb, inf, ev1 ++ ev', hframe, by rw [hev', hev1, List.append_assoc], List.mem_append_left _ hmem⟩

/-- What does not clear the latch. -/
theorem LatchCleared.of_kept {sent : Byte → List Byte → Prop} {s t : State} (h : s.latch = true → t.latch = true) :
    LatchCleared sent s t := fun hs ht => absurd (h hs) (by rw [ht]; decide)

/-- A part that writes neither the latch nor the bus port. -/
theorem LatchRun.silent {sent : Byte → List Byte → Prop} {s t : State} (haddr : t.i2cAddr = s.i2cAddr)
    (hparams : t.params = s.params) (hlink : t.link = s.link) (hlatch : t.latch = s.latch) : LatchRun sent s t :=
  ⟨haddr, hparams, ⟨[], by rw [hlink, List.append_nil]⟩, .of_kept fun hs => hlatch.trans hs⟩

theorem Talks.grows {k : Nat} {ok : Bool} {s t : State} (h : Talks k ok s t) : ∃ ev, t.link.trace = s.link.trace ++ ev := by
  obtain ⟨-, ev, -, -, hev, -⟩ := h
  exact ⟨ev, hev⟩

/-- A part of the bus procedures that does not clear the latch. -/
theorem Talks.latchRun {k : Nat} {ok : Bool} {s t : State} (h : Talks k ok s t) (hparams : t.params = s.params)
    (hlatch : s.latch = true → t.latch = true) (sent : Byte → List Byte → Prop) : LatchRun sent s t := by
  have hgrows := h.grows
  obtain ⟨⟨-, -, -, haddr⟩, -⟩ := h
  exact ⟨haddr, hparams, hgrows, .of_kept hlatch⟩

/-- LATCH is cleared after a send only under PER_SEND (R232, R233). -/
theorem perSend_of_latchAfterSend {s : State} (hs : s.latch = true) (h : latchAfterSend s = false) :
    s.params.latchClear = .perSend := by
  rw [latchAfterSend] at h
  split at h
  next hper => exact hper
  next => rw [hs] at h; cases h

theorem latchAfterSend_of_clear {s : State} (hs : s.latch = false) : latchAfterSend s = false := by
  rw [latchAfterSend]
  split
  · rfl
  · exact hs

/-! ## What each procedure does to the latch -/

/-- A successful FrameSend has written its own frame (R232). -/
theorem frameSend_latchRun (pcb : Byte) (inf : List Byte) (s : State) :
    LatchRun (fun p d => p = pcb ∧ d = inf) s (frameSend pcb inf s).2 := by
  have htalks := frameSend_talks pcb inf s
  have hlen : (loadTx pcb inf s).txlen = 5 + inf.length := buildFrame_length _ _ _
  have hframe : txFrame (loadTx pcb inf s) = buildFrame 0x5A#8 pcb inf := take_bufFill
  obtain ⟨ev, htrace, htransfer⟩ := xfer_transferTrace .write (5 + inf.length) (buildFrame 0x5A#8 pcb inf) (loadTx pcb inf s)
  rw [frameSend_eq, hlen, hframe] at htalks ⊢
  by_cases hok : (xfer .write (5 + inf.length) (buildFrame 0x5A#8 pcb inf) (loadTx pcb inf s)).1 = .ok
  · simp only [if_pos hok] at htalks ⊢
    refine ⟨rfl, rfl, htalks.grows, fun hs ht => ⟨perSend_of_latchAfterSend hs ht, pcb, inf, ev, ⟨rfl, rfl⟩, htrace, ?_⟩⟩
    obtain ⟨d, hd, hmem⟩ := htransfer.acked_mem (decide_eq_true hok)
    rwa [List.length_eq_zero_iff.1 hd] at hmem
  · simp only [if_neg hok] at htalks ⊢
    exact htalks.latchRun rfl id _

/-- FrameSend does not set the latch (R232). -/
theorem frameSend_latch_of_clear {s : State} (hs : s.latch = false) (pcb : Byte) (inf : List Byte) :
    (frameSend pcb inf s).2.latch = false := by
  rw [frameSend_eq]
  simp only
  split_ifs
  · exact latchAfterSend_of_clear hs
  · exact hs

/-- The frame of a WTX response sent through FrameSend (R256). -/
def WtxFrame (p : Params) (pcb : Byte) (inf : List Byte) : Prop :=
  p.wtxCache = .overwrite ∧ pcb = 0xE3#8 ∧ inf.length = 1

theorem wtxRespond_latchRun (e : Byte) (s : State) : LatchRun (WtxFrame s.params) s (wtxRespond e s).2 := by
  have htalks := wtxRespond_talks e s
  rw [wtxRespond] at htalks ⊢
  cases hcache : s.params.wtxCache with
  | bypass =>
    rw [hcache] at htalks
    exact htalks.latchRun rfl id _
  | overwrite =>
    refine (frameSend_latchRun _ [e] s).mono ?_
    rintro pcb inf ⟨rfl, rfl⟩
    exact ⟨hcache, by decide, rfl⟩

theorem wtxRespond_latch_of_clear {s : State} (hs : s.latch = false) (e : Byte) : (wtxRespond e s).2.latch = false := by
  rw [wtxRespond]
  cases s.params.wtxCache with
  | bypass => exact hs
  | overwrite => exact frameSend_latch_of_clear hs _ _

/-- Retransmit leaves the latch set (R258). -/
theorem retransmit_latch (s : State) : (retransmit s).2.latch = true := by
  rw [retransmit]
  split_ifs with hs
  · exact hs
  · rfl

/-- A WTX request in a receive, by its response: with re-entries left the pass's state is the response's (R251). -/
theorem passWtxRequest_succ_state (left : Nat) (s : State) :
    (passWtxRequest (left + 1) s).2 = (wtxRespond (wtxEcho s).1 (wtxEcho s).2).2 := by
  rw [passWtxRequest, if_neg left.succ_ne_zero]
  rcases wtxRespond (wtxEcho s).1 (wtxEcho s).2 with ⟨st, s1⟩
  cases st <;> rfl

theorem passRError_succ_state (left : Nat) (s : State) : (passRError (left + 1) s).2 = (retransmit s).2 := by
  rw [passRError, if_neg left.succ_ne_zero]
  rcases retransmit s with ⟨st, s1⟩
  cases st <;> rfl

theorem wtxEcho_latchRun (sent : Byte → List Byte → Prop) (s : State) : LatchRun sent s (wtxEcho s).2 := by
  obtain ⟨k, hk⟩ := wtxEcho_state s
  rw [hk]
  exact .silent rfl rfl rfl rfl

theorem LatchRun.refl (sent : Byte → List Byte → Prop) (s : State) : LatchRun sent s s := .silent rfl rfl rfl rfl

/-- A row's pass: only the WTX response, with re-entries left, can clear the latch (R251, R256). -/
theorem blockPass_latchRun (i : Instr) (left : Nat) (s : State) :
    LatchRun (fun pcb inf => i = .sWtxRequest ∧ 0 < left ∧ WtxFrame s.params pcb inf) s (blockPass i left s).2 := by
  rw [blockPass]
  split_ifs with hwtx hresend
  · cases left with
    | zero => exact .refl _ s
    | succ left =>
      have hresp := wtxRespond_latchRun (wtxEcho s).1 (wtxEcho s).2
      have hecho := wtxEcho_latchRun (fun pcb inf => i = .sWtxRequest ∧ 0 < left + 1 ∧ WtxFrame s.params pcb inf) s
      rw [hecho.params] at hresp
      rw [passWtxRequest_succ_state]
      exact hecho.trans (hresp.mono fun _ _ h => ⟨hwtx, left.succ_pos, h⟩)
  · cases left with
    | zero => exact .refl _ s
    | succ left =>
      obtain ⟨_, _, hstate⟩ := retransmit_state s
      rw [passRError_succ_state]
      exact (retransmit_talks s).latchRun (by rw [hstate]) (fun _ => retransmit_latch s) _
  · exact .refl _ s

/-- Only the resend, with re-entries left, can set the latch (R251, R258). -/
theorem blockPass_sets_latch {i : Instr} {left : Nat} {s : State} (hs : s.latch = false)
    (h : (blockPass i left s).2.latch = true) : i.asksResend = true ∧ 0 < left := by
  rw [blockPass] at h
  split_ifs at h with hwtx hresend
  · refine absurd h (Bool.eq_false_iff.1 ?_)
    cases left with
    | zero => exact hs
    | succ left =>
      obtain ⟨k, hk⟩ := wtxEcho_state s
      rw [passWtxRequest_succ_state]
      exact wtxRespond_latch_of_clear (by rw [hk]; exact hs) _
  · cases left with
    | zero => exact absurd (h.symm.trans hs) (by decide)
    | succ left => exact ⟨hresend, left.succ_pos⟩
  · exact absurd (h.symm.trans hs) (by decide)

theorem readBlock_latchRun (sent : Byte → List Byte → Prop) (s : State) : LatchRun sent s (readBlock s).2 := by
  obtain ⟨_, _, _, _, _, hstate⟩ := readBlock_state s
  exact (readBlock_talks s).latchRun (by rw [hstate]) (fun hs => by rw [hstate]; exact hs) sent

theorem recvBlock_latchRun (left : Nat) (s : State) : LatchRun (WtxFrame s.params) s (recvBlock left s).2 := by
  refine recvBlock_induct (R := fun s t => LatchRun (WtxFrame s.params) s t) ?_ (fun s => readBlock_latchRun _ s) ?_ left s
  · intro a b c hab hbc
    rw [hab.params] at hbc
    exact hab.trans hbc
  · intro pcb left s
    rw [← blockPass_decodeBlock]
    exact (blockPass_latchRun _ left s).mono fun _ _ ⟨_, _, hframe⟩ => hframe

theorem finish_latchRun (sent : Byte → List Byte → Prop) (c : Caller) (st : Status) (pcb : Byte) (s : State) :
    LatchRun sent s (finish c st pcb s) := by
  obtain ⟨_, _, _, hfin⟩ := finish_state c st pcb s
  rw [hfin]
  exact .silent rfl rfl rfl rfl

theorem runReceive_latchRun (c : Caller) (s : State) : LatchRun (WtxFrame s.params) s (runReceive c s) :=
  (recvBlock_latchRun (maxRetries s) s).trans (finish_latchRun _ c _ _ _)

/-! ## What each instruction does to the latch -/

/-- The frames an instruction sends through FrameSend: its own, or under OVERWRITE a WTX response (R236, R256). -/
def SentBy (i : Instr) (s : State) (pcb : Byte) (inf : List Byte) : Prop :=
  i.sentBlock s.ns = some (pcb, inf) ∨
    (WtxFrame s.params pcb inf ∧ (i.receives = true ∨ (i = .sWtxRequest ∧ ∃ c left, s.receiving = some ⟨c, left + 1⟩)))

theorem beforeSent_latchRun (sent : Byte → List Byte → Prop) (i : Instr) (s : State) : LatchRun sent s (beforeSent i s) := by
  cases i <;> exact .silent rfl rfl rfl rfl

theorem afterSent_latchRun {i : Instr} {sent : Byte → List Byte → Prop} {s : State}
    (hsent : ∀ pcb inf, WtxFrame s.params pcb inf → i.receives = true → sent pcb inf) :
    LatchRun sent s (afterSent (caller i) s) := by
  rcases hc : caller i with _ | c
  · exact .silent rfl rfl rfl rfl
  · have hreceives : i.receives = true := by rw [← caller_isSome, hc]; rfl
    exact (runReceive_latchRun c s).mono fun pcb inf h => hsent pcb inf h hreceives

theorem sent_latchRun {i : Instr} {s : State} {pcb : Byte} {inf : List Byte} (hsent : i.sentBlock s.ns = some (pcb, inf)) :
    LatchRun (SentBy i s) s (afterFrameSend (afterSent (caller i)) (frameSend pcb inf (beforeSent i s))) := by
  have hsend : LatchRun (SentBy i s) s (frameSend pcb inf (beforeSent i s)).2 := by
    refine (beforeSent_latchRun _ i s).trans ((frameSend_latchRun pcb inf _).mono ?_)
    rintro _ _ ⟨rfl, rfl⟩
    exact .inl hsent
  refine afterFrameSend_induct (P := LatchRun (SentBy i s) s) (fun _ => ?_) (fun _ => ?_)
  · refine hsend.trans (afterSent_latchRun fun _ _ h hreceives => .inr ⟨?_, .inl hreceives⟩)
    rwa [hsend.params] at h
  · exact hsend.trans (.silent rfl rfl rfl rfl)

theorem writeReg_latch (reg : Byte) (v : Word) (s : State) : (writeReg reg v s).latch = s.latch := by
  rw [writeReg]
  split_ifs <;> rfl

theorem exists_left_of_pos {s : State} {rc : Receive} (h : s.receiving = some rc) (hleft : 0 < rc.left) :
    ∃ c left, s.receiving = some ⟨c, left + 1⟩ :=
  ⟨rc.caller, rc.left - 1, by rw [h, Nat.sub_add_cancel hleft]⟩

theorem block_latchCleared (i : Instr) (pcb : Byte) (s : State) :
    LatchCleared (SentBy i s) s (receiveBlock (blockPass i) pcb s) := by
  have hpass {rc : Receive} (hrecv : s.receiving = some rc) : LatchRun (SentBy i s) s (blockPass i rc.left s).2 :=
    (blockPass_latchRun i rc.left s).mono fun _ _ ⟨hwtx, hleft, hframe⟩ =>
      .inr ⟨hframe, .inr ⟨hwtx, exists_left_of_pos hrecv hleft⟩⟩
  refine receiveBlock_induct (P := LatchCleared (SentBy i s) s) (fun _ => .of_kept id) ?_ ?_
  · intro rc s1 hrecv h
    have hrun := hpass hrecv
    rw [h] at hrun
    exact (hrun.trans (.silent rfl rfl rfl rfl)).cleared
  · intro rc s1 st hrecv h
    have hrun := hpass hrecv
    rw [h] at hrun
    have hend : LatchRun (SentBy i s) s1 { s1 with receiving := none } := .silent rfl rfl rfl rfl
    exact ((hrun.trans hend).trans (finish_latchRun _ rc.caller st pcb _)).cleared

/-- END_EXCHANGE apart, an instruction clears a set latch only by what it sends through FrameSend (R232, R233, R256). -/
theorem exec_latchCleared {i : Instr} {s t : State} (hend : ∀ a d, i ≠ .endExchange a d) (hexec : exec i s = .next t) :
    LatchCleared (SentBy i s) s t := by
  rcases layer_command_or_block i with hl | hl
  case inl =>
    cases commandRun_of_exec hl hexec with
    | sent _ pcb inf hcheck hsent => exact (sent_latchRun hsent).cleared
    | received arg data =>
      exact ((runReceive_latchRun .recv s).mono fun pcb inf h => .inr ⟨h, .inl rfl⟩).cleared
    | wroteReg arg data => exact .of_kept fun hs => (writeReg_latch arg (wrregValue data) s).trans hs
    | endedExchange arg data => exact absurd rfl (hend arg data)
    | refused | answered | clearedSeq => exact .of_kept id
  case inr =>
    rw [exec_block hl] at hexec
    cases hexec
    exact block_latchCleared i i.pcb s

/-- An instruction sets the latch only in a receive of its own, or as a row that asks for a resend (R258). -/
theorem exec_sets_latch {i : Instr} {s t : State} (hexec : exec i s = .next t) (hs : s.latch = false)
    (ht : t.latch = true) :
    i.receives = true ∨ (i.asksResend = true ∧ ∃ c left, s.receiving = some ⟨c, left + 1⟩) := by
  have hclear {u : State} (hu : u.latch = false) (h : u.latch = true) : False := absurd (h.symm.trans hu) (by decide)
  rcases layer_command_or_block i with hl | hl
  case inl =>
    refine .inl ?_
    by_contra hreceives
    have hnone : caller i = none := by
      rw [← Option.not_isSome_iff_eq_none, caller_isSome]
      exact hreceives
    cases commandRun_of_exec hl hexec with
    | sent _ pcb inf hcheck hsent =>
      have hsend : (frameSend pcb inf (beforeSent i s)).2.latch = false :=
        frameSend_latch_of_clear (by cases i <;> exact hs) pcb inf
      rw [hnone] at ht
      refine afterFrameSend_induct (P := fun t => t.latch = true → False) (fun _ => hclear hsend) (fun _ => hclear hsend) ht
    | received arg data => exact hreceives rfl
    | wroteReg arg data => exact hclear ((writeReg_latch arg (wrregValue data) s).trans hs) ht
    | endedExchange arg data => cases ht
    | refused | answered | clearedSeq => exact hclear hs ht
  case inr =>
    rw [exec_block hl] at hexec
    cases hexec
    refine .inr (receiveBlock_induct (P := fun t => t.latch = true → i.asksResend = true ∧
      ∃ c left, s.receiving = some ⟨c, left + 1⟩) (fun _ h => (hclear hs h).elim) ?_ ?_ ht)
    · intro rc s1 hrecv h hset
      obtain ⟨hresend, hleft⟩ := blockPass_sets_latch (left := rc.left) hs (by rw [h]; exact hset)
      exact ⟨hresend, exists_left_of_pos hrecv hleft⟩
    · intro rc s1 st hrecv h hset
      obtain ⟨_, _, _, hfin⟩ := finish_state rc.caller st i.pcb { s1 with receiving := none }
      rw [hfin] at hset
      obtain ⟨hresend, hleft⟩ := blockPass_sets_latch (left := rc.left) hs (by rw [h]; exact hset)
      exact ⟨hresend, exists_left_of_pos hrecv hleft⟩

/-- Settles O40. -/
theorem latchIsClearedAsItsParameterSays : Obligations.LatchIsClearedAsItsParameterSays := by
  unfold Obligations.LatchIsClearedAsItsParameterSays
  constructor
  · intro i s t hper hs hend hexec
    by_contra ht
    obtain ⟨hper', -⟩ := exec_latchCleared hend hexec hs (Bool.eq_false_iff.2 ht)
    rw [hper] at hper'
    cases hper'
  · intro i s t _ hs hexec ht
    by_cases hend : ∃ a d, i = .endExchange a d
    · exact .inl hend
    · obtain ⟨-, pcb, inf, ev, hsent, htrace, hmem⟩ :=
        exec_latchCleared (fun a d h => hend ⟨a, d, h⟩) hexec hs ht
      refine .inr ⟨pcb, inf, ev, htrace, hmem, hsent.imp_right ?_⟩
      rintro ⟨⟨hcache, hpcb, hlen⟩, hby⟩
      refine ⟨hcache, hpcb, hlen, hby.imp_right ?_⟩
      rintro ⟨hwtx, c, left, hrecv⟩
      exact ⟨hwtx, by rw [hrecv]; nofun⟩

end Sys2Proof.Machine
end

section
/-!
SUPPORT. Who writes what (10_state.md R32 to R44): one fact for each register, flag and buffer, over the forms that an instruction
can take.
-/

namespace Sys2Proof.Machine

/-! ## The parts that write -/

/-- What a legal WRREG can write: the five writable registers, each with its legal values (R38 to R42, R44, R294). -/
theorem writeReg_induct {P : Byte → State → Prop} {arg : Byte} {data : List Byte} {s : State}
    (hcheck : checkWrreg arg data = none)
    (hsegt : P 1#8 { s with segtUs := BitVec.ofNat 16 (natOfBytes data) })
    (hmpot : 1 ≤ natOfBytes data → natOfBytes data ≤ 65535 → P 2#8 { s with mpotUs := BitVec.ofNat 16 (natOfBytes data) })
    (hbwt : 1 ≤ natOfBytes data → natOfBytes data ≤ 65535 → P 3#8 { s with bwtMs := BitVec.ofNat 16 (natOfBytes data) })
    (haddr : P 5#8 { s with i2cAddr := BitVec.ofNat 7 (natOfBytes data) })
    (hflags : data.length = 4 →
      P 9#8 { s with nadMismatch := if natOfBytes data % 2 = 1 then false else s.nadMismatch }) :
    P arg (writeReg arg (wrregValue data) s) := by
  have hreg : arg ∈ writableRegs := by
    by_contra hnot
    rw [checkWrreg_of_not_mem hnot] at hcheck
    cases hcheck
  rw [checkWrreg_of_mem hreg] at hcheck
  have ⟨hlen, hlegal⟩ : data.length = 4 ∧ legalRegValue arg (natOfBytes data) = true := by
    by_contra hbad
    rw [if_neg hbad] at hcheck
    cases hcheck
  simp only [writableRegs, List.mem_cons, List.not_mem_nil, or_false] at hreg
  rcases hreg with rfl | rfl | rfl | rfl | rfl
  · rw [writeReg_segtUs]
    exact hsegt
  · obtain ⟨hleast, hmost⟩ := (legalRegValue_mpotUs_iff _).1 hlegal
    rw [writeReg_mpotUs]
    exact hmpot hleast hmost
  · obtain ⟨hleast, hmost⟩ := (legalRegValue_bwtMs_iff _).1 hlegal
    rw [writeReg_bwtMs]
    exact hbwt hleast hmost
  · rw [writeReg_i2cAddr]
    exact haddr
  · rw [writeReg_flags]
    exact hflags hlen

/-- WRREG writes the four timing and address registers and NAD_MISMATCH at most (R294). -/
theorem writeReg_state (reg : Byte) (v : Word) (s : State) :
    ∃ sg mp bw ad nm, writeReg reg v s =
      { s with segtUs := sg, mpotUs := mp, bwtMs := bw, i2cAddr := ad, nadMismatch := nm } := by
  simp only [writeReg]
  split_ifs <;> exact ⟨_, _, _, _, _, rfl⟩

theorem caller_eq_none {i : Instr} (h : i.receives ≠ true) : caller i = none := by
  rw [← Option.not_isSome_iff_eq_none, caller_isSome]
  exact h

/-- A sending command without a receive writes TXBUF, TXLEN, LATCH and the bus port, and responds (R240, R242). -/
theorem sent_state_of_not_receives {i : Instr} (h : i.receives ≠ true) (pcb : Byte) (inf : List Byte) (s : State) :
    ∃ b l r, afterFrameSend (afterSent (caller i)) (frameSend pcb inf s) =
      { loadTx pcb inf s with latch := b, link := l, out := s.out ++ [r] } := by
  obtain ⟨b, l, hsend⟩ := frameSend_state pcb inf s
  rw [caller_eq_none h]
  refine afterFrameSend_induct (P := fun t => ∃ b l r, t =
    { loadTx pcb inf s with latch := b, link := l, out := s.out ++ [r] }) (fun _ => ?_) (fun _ => ?_)
  · rw [hsend]
    exact ⟨b, l, _, rfl⟩
  · rw [hsend]
    exact ⟨b, l, _, rfl⟩

/-! ## The sequence numbers and the timing registers (R32, R33, R38 to R42) -/

/-- Of the state's registers a receive and a frame sent change none but N(S), which SEND_I has toggled. -/
theorem exec_registers {i : Instr} {s t : State} (hexec : exec i s = .next t) :
    (t.ns = s.ns ∨ (∃ a d, i = .sendI a d) ∨ (∃ a d, i = .clearSeq a d)) ∧ (t.nr = s.nr ∨ (∃ a d, i = .clearSeq a d)) ∧
      (SameTiming s t ∨ (∃ a d, i = .wrreg a d)) := by
  have hkept {u : State} (hns : u.ns = s.ns) (hnr : u.nr = s.nr) (htiming : SameTiming s u) :
      (u.ns = s.ns ∨ (∃ a d, i = .sendI a d) ∨ (∃ a d, i = .clearSeq a d)) ∧
        (u.nr = s.nr ∨ (∃ a d, i = .clearSeq a d)) ∧ (SameTiming s u ∨ (∃ a d, i = .wrreg a d)) :=
    ⟨.inl hns, .inl hnr, .inl htiming⟩
  rcases layer_command_or_block i with hl | hl
  case inl =>
    cases commandRun_of_exec hl hexec with
    | sent _ pcb inf =>
      obtain ⟨_, _, _, _, _, _, _, _, _, _, _, _, h⟩ := afterFrameSend_writes (caller i) pcb inf (beforeSent i s)
      rw [h]
      cases i with
      | sendI arg data => exact ⟨.inr (.inl ⟨_, _, rfl⟩), .inl rfl, .inl ⟨rfl, rfl, rfl, rfl⟩⟩
      | _ => exact hkept rfl rfl ⟨rfl, rfl, rfl, rfl⟩
    | received arg data =>
      obtain ⟨_, _, _, _, _, _, _, _, _, _, _, _, h⟩ := runReceive_writes .recv s
      rw [h]
      exact hkept rfl rfl ⟨rfl, rfl, rfl, rfl⟩
    | clearedSeq arg data =>
      exact ⟨.inr (.inr ⟨_, _, rfl⟩), .inr ⟨_, _, rfl⟩, .inl ⟨rfl, rfl, rfl, rfl⟩⟩
    | wroteReg arg data =>
      obtain ⟨_, _, _, _, _, h⟩ := writeReg_state arg (wrregValue data) s
      rw [h]
      exact ⟨.inl rfl, .inl rfl, .inr ⟨_, _, rfl⟩⟩
    | refused | answered | endedExchange => exact hkept rfl rfl ⟨rfl, rfl, rfl, rfl⟩
  case inr =>
    rw [exec_block hl] at hexec
    cases hexec
    obtain ⟨_, _, _, _, _, _, _, _, _, h⟩ := receiveBlock_state i i.pcb s
    rw [h]
    exact hkept rfl rfl ⟨rfl, rfl, rfl, rfl⟩

/-! ## LATCH (R34) -/

theorem exec_latch {i : Instr} {s t : State} (hexec : exec i s = .next t) :
    t.latch = s.latch ∨
      (t.latch = true ∧ (i.receives = true ∨ (i.asksResend = true ∧ ∃ c left, s.receiving = some ⟨c, left + 1⟩))) ∨
      (t.latch = false ∧ ((∃ a d, i = .endExchange a d) ∨ (s.params.latchClear = .perSend ∧ (i.sends = true ∨
        (s.params.wtxCache = .overwrite ∧
          (i.receives = true ∨ (i = .sWtxRequest ∧ ∃ c left, s.receiving = some ⟨c, left + 1⟩))))))) := by
  by_cases heq : t.latch = s.latch
  · exact .inl heq
  · right
    cases ht : t.latch with
    | true =>
      rw [ht] at heq
      exact .inl ⟨rfl, exec_sets_latch hexec (Bool.eq_false_iff.2 (Ne.symm heq)) ht⟩
    | false =>
      rw [ht] at heq
      refine .inr ⟨rfl, ?_⟩
      by_cases hend : ∃ a d, i = .endExchange a d
      · exact .inl hend
      · obtain ⟨hper, pcb, inf, ev, hsent, -⟩ :=
          exec_latchCleared (fun a d h => hend ⟨a, d, h⟩) hexec (Bool.eq_true_of_not_eq_false (Ne.symm heq)) ht
        refine .inr ⟨hper, hsent.imp sends_of_sentBlock ?_⟩
        rintro ⟨⟨hcache, -⟩, hby⟩
        exact ⟨hcache, hby⟩

/-! ## TXBUF (R35) -/

/-- The cached frame is the same in both states. -/
def SameTx (s t : State) : Prop := t.txbuf = s.txbuf ∧ t.txlen = s.txlen

/-- WtxRespond writes the cached frame only under OVERWRITE (R256). -/
theorem wtxRespond_tx (e : Byte) (s : State) : SameTx s (wtxRespond e s).2 ∨ s.params.wtxCache = .overwrite := by
  rw [wtxRespond]
  cases s.params.wtxCache with
  | bypass => exact .inl ⟨rfl, rfl⟩
  | overwrite => exact .inr rfl

/-- A row's pass writes the cached frame only in a WTX response under OVERWRITE (R256, R258). -/
theorem blockPass_tx (i : Instr) (left : Nat) (s : State) :
    SameTx s (blockPass i left s).2 ∨ (s.params.wtxCache = .overwrite ∧ i = .sWtxRequest ∧ 0 < left) := by
  rw [blockPass]
  split_ifs with hwtx
  · cases left with
    | zero => exact .inl ⟨rfl, rfl⟩
    | succ left =>
      have hresp := wtxRespond_tx (wtxEcho s).1 (wtxEcho s).2
      obtain ⟨k, hk⟩ := wtxEcho_state s
      rw [passWtxRequest_succ_state]
      rw [hk] at hresp ⊢
      exact hresp.imp_right fun hcache => ⟨hcache, hwtx, left.succ_pos⟩
  · cases left with
    | zero => exact .inl ⟨rfl, rfl⟩
    | succ left =>
      obtain ⟨_, _, h⟩ := retransmit_state s
      rw [passRError_succ_state, h]
      exact .inl ⟨rfl, rfl⟩
  · exact .inl ⟨rfl, rfl⟩

theorem recvBlock_tx (left : Nat) (s : State) :
    (recvBlock left s).2.params = s.params ∧ (SameTx s (recvBlock left s).2 ∨ s.params.wtxCache = .overwrite) := by
  refine recvBlock_induct (R := fun s t => t.params = s.params ∧ (SameTx s t ∨ s.params.wtxCache = .overwrite))
    ?_ ?_ ?_ left s
  · rintro a b c ⟨hab, htx⟩ ⟨hbc, htx'⟩
    refine ⟨hbc.trans hab, ?_⟩
    rw [hab] at htx'
    rcases htx with ⟨hbuf, hlen⟩ | hcache
    · exact htx'.imp_left fun ⟨hbuf', hlen'⟩ => ⟨hbuf'.trans hbuf, hlen'.trans hlen⟩
    · exact .inr hcache
  · intro s
    obtain ⟨_, _, _, _, _, h⟩ := readBlock_state s
    rw [h]
    exact ⟨rfl, .inl ⟨rfl, rfl⟩⟩
  · intro pcb left s
    rw [← blockPass_decodeBlock]
    exact ⟨(blockPass_latchRun _ left s).params, (blockPass_tx _ left s).imp_right fun ⟨hcache, _⟩ => hcache⟩

theorem finish_tx (c : Caller) (st : Status) (pcb : Byte) (s : State) : SameTx s (finish c st pcb s) := by
  obtain ⟨_, _, _, h⟩ := finish_state c st pcb s
  rw [h]
  exact ⟨rfl, rfl⟩

theorem SameTx.trans {s t u : State} (h : SameTx s t) (h' : SameTx t u) : SameTx s u :=
  ⟨h'.1.trans h.1, h'.2.trans h.2⟩

theorem block_tx (i : Instr) (pcb : Byte) (s : State) :
    SameTx s (receiveBlock (blockPass i) pcb s) ∨
      (s.params.wtxCache = .overwrite ∧ i = .sWtxRequest ∧ ∃ c left, s.receiving = some ⟨c, left + 1⟩) := by
  have hpass {rc : Receive} (hrecv : s.receiving = some rc) : SameTx s (blockPass i rc.left s).2 ∨
      (s.params.wtxCache = .overwrite ∧ i = .sWtxRequest ∧ ∃ c left, s.receiving = some ⟨c, left + 1⟩) :=
    (blockPass_tx i rc.left s).imp_right fun ⟨hcache, hwtx, hleft⟩ => ⟨hcache, hwtx, exists_left_of_pos hrecv hleft⟩
  refine receiveBlock_induct (P := fun t => SameTx s t ∨
      (s.params.wtxCache = .overwrite ∧ i = .sWtxRequest ∧ ∃ c left, s.receiving = some ⟨c, left + 1⟩))
    (fun _ => .inl ⟨rfl, rfl⟩) ?_ ?_
  · intro rc s1 hrecv h
    have := hpass hrecv
    rw [h] at this
    exact this
  · intro rc s1 st hrecv h
    have := hpass hrecv
    rw [h] at this
    exact this.imp_left fun htx => htx.trans (finish_tx rc.caller st pcb { s1 with receiving := none })

theorem exec_tx {i : Instr} {s t : State} (hexec : exec i s = .next t) :
    SameTx s t ∨ i.sends = true ∨ (∃ a d, i = .endExchange a d) ∨
      (s.params.wtxCache = .overwrite ∧
        (i.receives = true ∨ (i = .sWtxRequest ∧ ∃ c left, s.receiving = some ⟨c, left + 1⟩))) := by
  rcases layer_command_or_block i with hl | hl
  case inl =>
    cases commandRun_of_exec hl hexec with
    | sent _ pcb inf hcheck hsent => exact .inr (.inl (sends_of_sentBlock hsent))
    | received arg data =>
      rw [runReceive_eq]
      obtain ⟨-, htx | hcache⟩ := recvBlock_tx (maxRetries s) s
      · exact .inl (htx.trans (finish_tx _ _ _ _))
      · exact .inr (.inr (.inr ⟨hcache, .inl rfl⟩))
    | endedExchange arg data => exact .inr (.inr (.inl ⟨_, _, rfl⟩))
    | wroteReg arg data =>
      obtain ⟨_, _, _, _, _, h⟩ := writeReg_state arg (wrregValue data) s
      rw [h]
      exact .inl ⟨rfl, rfl⟩
    | refused | answered | clearedSeq => exact .inl ⟨rfl, rfl⟩
  case inr =>
    rw [exec_block hl] at hexec
    cases hexec
    exact (block_tx i i.pcb s).imp_right fun ⟨hcache, hby⟩ => .inr (.inr ⟨hcache, .inr hby⟩)

/-! ## RXBUF and LAST_RX (R36, R43) -/

/-- RXBUF, RXLEN and LAST_RX are the same in both states. -/
def SameRx (s t : State) : Prop := t.rxbuf = s.rxbuf ∧ t.rxlen = s.rxlen ∧ t.lastRx = s.lastRx

/-- Only a command that receives, or END_EXCHANGE, writes RXBUF, and END_EXCHANGE leaves LAST_RX. -/
theorem exec_rx {i : Instr} {s t : State} (hexec : exec i s = .next t) :
    SameRx s t ∨ i.receives = true ∨ ((∃ a d, i = .endExchange a d) ∧ t.lastRx = s.lastRx) := by
  by_cases hreceives : i.receives = true
  · exact .inr (.inl hreceives)
  rcases layer_command_or_block i with hl | hl
  case inl =>
    cases commandRun_of_exec hl hexec with
    | sent _ pcb inf =>
      obtain ⟨_, _, _, h⟩ := sent_state_of_not_receives hreceives pcb inf (beforeSent i s)
      rw [h]
      refine .inl ?_
      cases i <;> exact ⟨rfl, rfl, rfl⟩
    | received arg data => exact absurd rfl hreceives
    | endedExchange arg data => exact .inr (.inr ⟨⟨_, _, rfl⟩, rfl⟩)
    | wroteReg arg data =>
      obtain ⟨_, _, _, _, _, h⟩ := writeReg_state arg (wrregValue data) s
      rw [h]
      exact .inl ⟨rfl, rfl, rfl⟩
    | refused | answered | clearedSeq => exact .inl ⟨rfl, rfl, rfl⟩
  case inr =>
    rw [exec_block hl] at hexec
    cases hexec
    obtain ⟨_, _, _, _, _, _, _, _, _, h⟩ := receiveBlock_state i i.pcb s
    rw [h]
    exact .inl ⟨rfl, rfl, rfl⟩

/-! ## The ATR cache (R37) -/

/-- The ATR cache is the same in both states. -/
def SameAtr (s t : State) : Prop := t.atrbuf = s.atrbuf ∧ t.atrlen = s.atrlen

/-- A command's end writes the ATR cache only for SOFT_RESET and its response (R270). -/
theorem finish_atr (c : Caller) (st : Status) (pcb : Byte) (s : State) :
    SameAtr s (finish c st pcb s) ∨ (c = .softReset ∧ st = .ok ∧ pcb = 0xEF#8) := by
  by_cases hok : st = .ok
  · subst hok
    cases c with
    | recv | token => exact .inl ⟨rfl, rfl⟩
    | softReset =>
      by_cases hpcb : pcb = 0xEF#8
      · exact .inr ⟨rfl, rfl, hpcb⟩
      · rw [finish_softReset_other hpcb]
        exact .inl ⟨rfl, rfl⟩
    | hardReset =>
      rw [finish_hardReset]
      exact .inl ⟨rfl, rfl⟩
  · rw [finish_of_ne_ok hok]
    exact .inl ⟨rfl, rfl⟩

theorem runReceive_atr {c : Caller} (hc : c ≠ .softReset) (s : State) : SameAtr s (runReceive c s) := by
  obtain ⟨_, _, _, _, _, _, _, _, _, h⟩ := recvBlock_state (maxRetries s) s
  rw [runReceive_eq]
  rcases finish_atr c (recvBlock (maxRetries s) s).1 (byteAt (recvBlock (maxRetries s) s).2.rxbuf 1)
    (recvBlock (maxRetries s) s).2 with hsame | ⟨hsoft, -⟩
  · rw [h] at hsame ⊢
    exact hsame
  · exact absurd hsoft hc

theorem exec_atr {i : Instr} {s t : State} (hwf : i.wf = true) (hexec : exec i s = .next t) :
    SameAtr s t ∨ (∃ a d, i = .softReset a d) ∨
      (i = .sSoftResetResponse ∧ ∃ left, s.receiving = some ⟨.softReset, left⟩) := by
  rcases layer_command_or_block i with hl | hl
  case inl =>
    cases commandRun_of_exec hl hexec with
    | sent _ pcb inf hcheck hsent =>
      by_cases hsoft : ∃ a d, i = .softReset a d
      · exact .inr (.inl hsoft)
      · obtain ⟨b, l, hsend⟩ := frameSend_state pcb inf (beforeSent i s)
        have hbefore : SameAtr s (frameSend pcb inf (beforeSent i s)).2 := by
          rw [hsend]
          cases i <;> exact ⟨rfl, rfl⟩
        refine .inl (afterFrameSend_induct (P := SameAtr s) (fun _ => ?_) (fun _ => hbefore))
        rcases hc : caller i with _ | c
        · exact hbefore
        · have hc' : c ≠ .softReset := by
            rintro rfl
            cases i with
            | softReset arg data => exact hsoft ⟨arg, data, rfl⟩
            | sendI arg data =>
              rw [caller] at hc
              split_ifs at hc
              cases hc
            | _ => cases hc
          obtain ⟨hbuf, hlen⟩ := runReceive_atr hc' (frameSend pcb inf (beforeSent i s)).2
          exact ⟨hbuf.trans hbefore.1, hlen.trans hbefore.2⟩
    | received arg data => exact .inl (runReceive_atr (c := .recv) nofun s)
    | wroteReg arg data =>
      obtain ⟨_, _, _, _, _, h⟩ := writeReg_state arg (wrregValue data) s
      rw [h]
      exact .inl ⟨rfl, rfl⟩
    | refused | answered | clearedSeq | endedExchange => exact .inl ⟨rfl, rfl⟩
  case inr =>
    rw [exec_block hl] at hexec
    cases hexec
    obtain ⟨pcb, hpass⟩ := exists_pass_eq_blockPass i
    have hsame {left : Nat} {p : Pass} {s1 : State} (h : blockPass i left s = (p, s1)) : SameAtr s s1 := by
      obtain ⟨_, _, _, _, _, hstate⟩ := pass_state pcb left s
      rw [← hpass, h] at hstate
      subst hstate
      exact ⟨rfl, rfl⟩
    refine receiveBlock_induct (P := fun t => SameAtr s t ∨ (∃ a d, i = .softReset a d) ∨
        (i = .sSoftResetResponse ∧ ∃ left, s.receiving = some ⟨.softReset, left⟩))
      (fun _ => .inl ⟨rfl, rfl⟩) (fun rc s1 _ h => .inl (hsame (s1 := s1) h)) (fun rc s1 st hrecv h => ?_)
    obtain ⟨hbuf, hlen⟩ := hsame h
    rcases finish_atr rc.caller st i.pcb { s1 with receiving := none } with ⟨hbuf', hlen'⟩ | ⟨hsoft, -, hpcb⟩
    · exact .inl ⟨hbuf'.trans hbuf, hlen'.trans hlen⟩
    · exact .inr (.inr ⟨(pcb_eq_iff (j := .sSoftResetResponse) hwf hl rfl rfl).1 hpcb, rc.left,
        by rw [hrecv, ← hsoft]⟩)

/-! ## NAD_MISMATCH (R44) -/

/-- From `s` to `t` NAD_MISMATCH is set or stays (R250). -/
def NadSticky (s t : State) : Prop := t.nadMismatch = s.nadMismatch ∨ t.nadMismatch = true

theorem NadSticky.trans {s t u : State} (h : NadSticky s t) (h' : NadSticky t u) : NadSticky s u := by
  rcases h' with h' | h'
  · exact h.imp h'.trans h'.trans
  · exact .inr h'

theorem acceptFrame_nad (s : State) : NadSticky s (acceptFrame s).2 := by
  have hflag : NadSticky s { s with nadMismatch := nadFlagAfter (verifyFrame (rxFrame s)).1 s } := by
    cases hs : s.nadMismatch with
    | false => exact (Bool.eq_false_or_eq_true _).symm.imp_left fun h => h.trans hs.symm
    | true => exact .inr (by simp only [nadFlagAfter, hs, Bool.true_or])
  rw [acceptFrame]
  simp only
  split_ifs <;> exact hflag

theorem afterHeader_nad (s : State) : NadSticky s (afterHeader s).2 := by
  rw [afterHeader]
  split_ifs
  · exact .inl rfl
  · exact acceptFrame_nad s
  · rcases hxfer : xfer .read (frameLen s.rxbuf) [] s with ⟨st, d, s1⟩
    have hs1 : s1.nadMismatch = s.nadMismatch := by
      rw [xfer_eq] at hxfer
      obtain ⟨-, hxfer⟩ := Prod.mk.inj hxfer
      obtain ⟨-, rfl⟩ := Prod.mk.inj hxfer
      rfl
    cases st with
    | ok => exact NadSticky.trans (.inl hs1) (acceptFrame_nad (storeRx 5 d s1))
    | _ => exact .inl hs1

theorem readBlock_nad (s : State) : NadSticky s (readBlock s).2 := by
  rcases hxfer : xfer .read 5 [] (clearRx s) with ⟨st, h, s1⟩
  have hs1 : s1 = { clearRx s with link := s1.link } := by
    rw [xfer_eq] at hxfer
    cases hxfer
    rfl
  by_cases hst : st = .ok
  · subst hst
    rw [hs1] at hxfer
    rw [readBlock_of_header hxfer]
    exact afterHeader_nad (withHeader h s1.link s)
  · rw [readBlock_of_failed_header hst hxfer, hs1]
    exact .inl rfl

theorem runReceive_nad (c : Caller) (s : State) : NadSticky s (runReceive c s) := by
  have hrecv : NadSticky s (recvBlock (maxRetries s) s).2 := by
    refine recvBlock_induct (R := NadSticky) (fun _ _ _ => NadSticky.trans) readBlock_nad (fun pcb left s => ?_) _ s
    obtain ⟨_, _, _, _, _, h⟩ := pass_state pcb left s
    rw [h]
    exact .inl rfl
  obtain ⟨_, _, _, hfin⟩ := finish_state c (recvBlock (maxRetries s) s).1
    (byteAt (recvBlock (maxRetries s) s).2.rxbuf 1) (recvBlock (maxRetries s) s).2
  rw [runReceive_eq, hfin]
  exact hrecv

theorem sent_nad (c : Option Caller) (pcb : Byte) (inf : List Byte) (s : State) :
    NadSticky s (afterFrameSend (afterSent c) (frameSend pcb inf s)) := by
  obtain ⟨b, l, hsend⟩ := frameSend_state pcb inf s
  have hsent : NadSticky s (frameSend pcb inf s).2 := by
    rw [hsend]
    exact .inl rfl
  refine afterFrameSend_induct (P := NadSticky s) (fun _ => ?_) (fun _ => hsent)
  cases c with
  | none => exact hsent
  | some c => exact hsent.trans (runReceive_nad c _)

theorem block_nad {i : Instr} (hl : i.layer = .block) {s t : State} (hexec : exec i s = .next t) :
    t.nadMismatch = s.nadMismatch := by
  rw [exec_block hl] at hexec
  cases hexec
  obtain ⟨_, _, _, _, _, _, _, _, _, h⟩ := receiveBlock_state i i.pcb s
  rw [h]

/-- A WRREG clears NAD_MISMATCH only as FLAGS with bit 0 set (R44). -/
theorem wroteReg_nad {arg : Byte} {data : List Byte} (hcheck : checkWrreg arg data = none) (s : State) :
    (writeReg arg (wrregValue data) s).nadMismatch = s.nadMismatch ∨
      ((writeReg arg (wrregValue data) s).nadMismatch = false ∧ arg = 9#8 ∧ data.length = 4 ∧ natOfBytes data % 2 = 1) := by
  refine writeReg_induct (P := fun arg t => t.nadMismatch = s.nadMismatch ∨
    (t.nadMismatch = false ∧ arg = 9#8 ∧ data.length = 4 ∧ natOfBytes data % 2 = 1)) hcheck
    (.inl rfl) (fun _ _ => .inl rfl) (fun _ _ => .inl rfl) (.inl rfl) (fun hlen => ?_)
  by_cases hodd : natOfBytes data % 2 = 1
  · exact .inr ⟨if_pos hodd, rfl, hlen, hodd⟩
  · exact .inl (if_neg hodd)

theorem exec_nad {i : Instr} {s t : State} (hexec : exec i s = .next t) :
    t.nadMismatch = s.nadMismatch ∨ (t.nadMismatch = true ∧ i.receives = true) ∨
      (t.nadMismatch = false ∧ ∃ d, i = .wrreg 9#8 d ∧ d.length = 4 ∧ natOfBytes d % 2 = 1) := by
  rcases layer_command_or_block i with hl | hl
  case inr => exact .inl (block_nad hl hexec)
  cases commandRun_of_exec hl hexec with
  | sent _ pcb inf =>
    have hbefore : (beforeSent i s).nadMismatch = s.nadMismatch := by cases i <;> rfl
    rw [← hbefore]
    by_cases hreceives : i.receives = true
    · exact (sent_nad (caller i) pcb inf (beforeSent i s)).imp_right fun h => .inl ⟨h, hreceives⟩
    · obtain ⟨b, l, r, h⟩ := sent_state_of_not_receives hreceives pcb inf (beforeSent i s)
      rw [h]
      exact .inl rfl
  | received arg data => exact (runReceive_nad .recv s).imp_right fun h => .inl ⟨h, rfl⟩
  | wroteReg arg data hcheck =>
    rcases wroteReg_nad hcheck s with hsame | ⟨hclear, rfl, hd⟩
    · exact .inl hsame
    · exact .inr (.inr ⟨hclear, data, rfl, hd⟩)
  | refused | answered | clearedSeq | endedExchange => exact .inl rfl

/-- Over steps NAD_MISMATCH is cleared only by the reset input and by a WRREG of FLAGS (R44). -/
theorem step_clears_nad {s t : State} (hstep : step s = .next t) (hs : s.nadMismatch = true) (ht : t.nadMismatch = false) :
    s.resetPin = true ∨ (s.receiving = none ∧ ∃ d rest, decodeCommand s.port = .ok (.wrreg 9#8 d, rest) ∧ d.length = 4 ∧
      natOfBytes d % 2 = 1) := by
  have hset {u : State} (hu : u.nadMismatch = true) (h : u.nadMismatch = false) : False :=
    absurd (h.symm.trans hu) (by decide)
  by_cases hpin : s.resetPin = true
  · exact .inl hpin
  have hpin' : s.resetPin = false := Bool.eq_false_iff.2 hpin
  rcases hrecv : s.receiving with _ | rc
  case some =>
    exfalso
    have hread : (readBlock s).2.nadMismatch = true := (readBlock_nad s).elim (fun h => h.trans hs) id
    rcases hr : readBlock s with ⟨st, s1⟩
    rw [hr] at hread
    by_cases hst : st = .ok
    · subst hst
      rw [step_of_readBlock hpin' hrecv hr] at hstep
      obtain ⟨-, hl, -⟩ := decodeBlock_spec (byteAt s1.rxbuf 1)
      exact hset ((block_nad hl hstep).trans hread) ht
    · rw [step_of_readBlock_error hpin' hrecv hst hr] at hstep
      cases hstep
      exact hset hread ht
  case none =>
    refine .inr ⟨rfl, ?_⟩
    rcases hport : decodeCommand s.port with e | ⟨i, rest⟩
    · simp only [step, hpin', hrecv, hport, Bool.false_eq_true, if_false] at hstep
      cases hstep
      exact (hset hs ht).elim
    · rw [step_of_decodeCommand hpin' hrecv hport] at hstep
      rcases exec_nad hstep with hsame | ⟨htrue, -⟩ | ⟨-, d, rfl, hd⟩
      · exact (hset (hsame.trans hs) ht).elim
      · exact (hset htrue ht).elim
      · exact ⟨d, rest, rfl, hd⟩

/-- Settles O12, a fact for each register. -/
theorem writersOfEachRegister : Obligations.WritersOfEachRegister := by
  unfold Obligations.WritersOfEachRegister
  refine ⟨fun i s t hwf hexec => ?_, fun s t hstep hs ht => step_clears_nad hstep hs ht⟩
  obtain ⟨hns, hnr, htiming⟩ := exec_registers hexec
  have hrx := exec_rx hexec
  refine ⟨hns, hnr, exec_latch hexec, exec_tx hexec, ?_, ?_, exec_atr hwf hexec, htiming.imp_left ?_, exec_nad hexec⟩
  · rcases hrx with ⟨hbuf, hlen, -⟩ | hreceives | ⟨hend, -⟩
    · exact .inl ⟨hbuf, hlen⟩
    · exact .inr (.inl hreceives)
    · exact .inr (.inr hend)
  · rcases hrx with ⟨-, -, hlast⟩ | hreceives | ⟨-, hlast⟩
    · exact .inl hlast
    · exact .inr hreceives
    · exact .inl hlast
  · exact id

end Sys2Proof.Machine
end

section
/-!
SUPPORT. States in order (10_state.md R35 to R40, R48): what each procedure of the engine keeps, up to the step.
-/

namespace Sys2Proof.Machine

/-! ## TXBUF -/

theorem frameLen_bufFill {size : Nat} {d : List Byte} (h : 3 ≤ d.length) : frameLen (bufFill size d) = frameLen d := by
  rw [frameLen, byteAt_bufFill h, frameLen]

/-- A frame of the block put into TXBUF verifies there (R35, R178). -/
theorem loadTx_inOrder {s : State} (hs : InOrder s) (pcb : Byte) {inf : List Byte} (h : inf.length ≤ 254) :
    InOrder (loadTx pcb inf s) := by
  have hlen : (buildFrame Config.nadHost pcb inf).length = 5 + inf.length := buildFrame_length _ _ _
  have hfits : (buildFrame Config.nadHost pcb inf).length ≤ Config.frameBytes := hlen.trans_le (Nat.add_le_add_left h 5)
  have hinf : frameLen (loadTx pcb inf s).txbuf = inf.length := by
    rw [loadTx, frameLen_bufFill (by omega), frameLen_buildFrame _ _ h]
  have hnad : byteAt (loadTx pcb inf s).txbuf 0 = Config.nadHost := by
    rw [loadTx, byteAt_bufFill (by omega)]
    rfl
  have hframe : txFrame (loadTx pcb inf s) = buildFrame Config.nadHost pcb inf := take_bufFill
  have hcache : txCacheWf (loadTx pcb inf s) = true := by
    have htxlen : (loadTx pcb inf s).txlen = 5 + inf.length := hlen
    have hmax : inf.length ≤ Config.maxInf := h
    simp [txCacheWf, hnad, hinf, hframe, htxlen, hmax, verifyFrame_buildFrame _ _ h]
  exact ⟨bufWf_bufFill hfits, hs.rx, hs.atr, hcache, hs.rxLayout, hs.timing, hs.receive⟩

theorem frameSend_inOrder {s : State} (hs : InOrder s) (pcb : Byte) {inf : List Byte} (h : inf.length ≤ 254) :
    InOrder (frameSend pcb inf s).2 := by
  obtain ⟨htx, hrx, hatr, hcache, hlayout, htiming, hreceive⟩ := loadTx_inOrder hs pcb h
  obtain ⟨_, _, hstate⟩ := frameSend_state pcb inf s
  rw [hstate]
  exact ⟨htx, hrx, hatr, hcache, hlayout, htiming, hreceive⟩

theorem wtxRespond_inOrder {s : State} (hs : InOrder s) (e : Byte) : InOrder (wtxRespond e s).2 := by
  rw [wtxRespond]
  cases s.params.wtxCache with
  | bypass => exact ⟨hs.tx, hs.rx, hs.atr, hs.txCache, hs.rxLayout, hs.timing, hs.receive⟩
  | overwrite => exact frameSend_inOrder hs _ (by decide : 1 ≤ 254)

theorem blockPass_inOrder {s : State} (hs : InOrder s) (i : Instr) (left : Nat) : InOrder (blockPass i left s).2 := by
  rw [blockPass]
  split_ifs
  · cases left with
    | zero => exact hs
    | succ left =>
      obtain ⟨k, hk⟩ := wtxEcho_state s
      have hecho : InOrder (wtxEcho s).2 := by
        rw [hk]
        exact ⟨hs.tx, hs.rx, hs.atr, hs.txCache, hs.rxLayout, hs.timing, hs.receive⟩
      rw [passWtxRequest_succ_state]
      exact wtxRespond_inOrder hecho _
  · cases left with
    | zero => exact hs
    | succ left =>
      obtain ⟨_, _, hstate⟩ := retransmit_state s
      rw [passRError_succ_state, hstate]
      exact ⟨hs.tx, hs.rx, hs.atr, hs.txCache, hs.rxLayout, hs.timing, hs.receive⟩
  · exact hs

/-! ## RXBUF -/

/-- RXBUF in canonical form, with nothing, a header or a whole frame in it (R36). -/
def RxInOrder (s : State) : Prop := bufWf Config.frameBytes s.rxlen s.rxbuf = true ∧ rxLayoutWf s = true

/-- What ReadBlock leaves in RXBUF: on OK a frame with LEN in range (R250). -/
structure RxRead (st : Status) (s : State) : Prop where
  inOrder : RxInOrder s
  len : st = .ok → frameLen s.rxbuf ≤ 254

theorem rxInOrder_of_bufFill {s : State} {d : List Byte} (hbuf : s.rxbuf = bufFill Config.frameBytes d)
    (hlen : s.rxlen = d.length) (hd : d.length = 5 ∨ (d.length = 5 + frameLen d ∧ frameLen d ≤ 254)) : RxInOrder s := by
  have hmin : 3 ≤ d.length := by omega
  have hfits : d.length ≤ Config.frameBytes := by
    have : Config.frameBytes = 259 := rfl
    omega
  refine ⟨?_, ?_⟩
  · rw [hbuf, hlen]
    exact bufWf_bufFill hfits
  · have hmax : Config.maxInf = 254 := rfl
    simp only [rxLayoutWf, hbuf, hlen, frameLen_bufFill hmin, hmax, Bool.or_eq_true, Bool.and_eq_true, beq_iff_eq,
      decide_eq_true_eq]
    omega

theorem acceptFrame_rxRead {s : State} (hs : RxInOrder s) (hlen : frameLen s.rxbuf ≤ 254) :
    RxRead (acceptFrame s).1 (acceptFrame s).2 := by
  obtain ⟨_, _, hstate⟩ := acceptFrame_state s
  rw [hstate]
  exact ⟨hs, fun _ => hlen⟩

theorem afterHeader_rxRead {h : List Byte} (h5 : h.length = 5) (l : Link) (s : State) :
    RxRead (afterHeader (withHeader h l s)).1 (afterHeader (withHeader h l s)).2 := by
  have hheader (l : Link) : RxInOrder (withHeader h l s) := rxInOrder_of_bufFill rfl rfl (.inl h5)
  have hmax : Config.maxInf = 254 := rfl
  rw [afterHeader, withHeader_frameLen h5]
  split_ifs with hlong hempty
  · exact ⟨hheader l, nofun⟩
  · exact acceptFrame_rxRead (hheader l) (by rw [withHeader_frameLen h5]; omega)
  · have hbytes := (xfer_bytes .read (frameLen h) [] (withHeader h l s)).1
    rcases hxfer : xfer .read (frameLen h) [] (withHeader h l s) with ⟨st, d, s1⟩
    rw [hxfer] at hbytes
    have hs1 : s1 = withHeader h s1.link s := by
      rw [xfer_eq] at hxfer
      obtain ⟨-, hxfer⟩ := Prod.mk.inj hxfer
      obtain ⟨-, rfl⟩ := Prod.mk.inj hxfer
      rfl
    cases st with
    | ok =>
      have hd : d.length = frameLen h := hbytes rfl
      have hbuf : (storeRx 5 d s1).rxbuf = bufFill Config.frameBytes (h ++ d) := by
        rw [hs1, ← bufWrite_bufFill, h5]
        rfl
      have hlen : frameLen (h ++ d) = frameLen h := by rw [frameLen, byteAt_append_left (by omega), frameLen]
      have hlength : (h ++ d).length = 5 + frameLen h := by rw [List.length_append, h5, hd]
      refine acceptFrame_rxRead (rxInOrder_of_bufFill hbuf ?_ (.inr ?_)) ?_
      · rw [hlength, ← hd]
        rfl
      · omega
      · rw [hbuf, frameLen_bufFill (by omega)]
        omega
    | _ =>
      rw [hs1]
      exact ⟨hheader _, nofun⟩

/-- Whatever was in RXBUF before, ReadBlock leaves it in order (R36, R250). -/
theorem readBlock_rxRead (s : State) : RxRead (readBlock s).1 (readBlock s).2 := by
  have hbytes := (xfer_bytes .read 5 [] (clearRx s)).1
  rcases hxfer : xfer .read 5 [] (clearRx s) with ⟨st, h, s1⟩
  rw [hxfer] at hbytes
  have hs1 : s1 = { clearRx s with link := s1.link } := by
    rw [xfer_eq] at hxfer
    obtain ⟨-, hxfer⟩ := Prod.mk.inj hxfer
    obtain ⟨-, rfl⟩ := Prod.mk.inj hxfer
    rfl
  by_cases hst : st = .ok
  · subst hst
    rw [hs1] at hxfer
    rw [readBlock_of_header hxfer]
    exact afterHeader_rxRead (hbytes rfl) s1.link s
  · rw [readBlock_of_failed_header hst hxfer]
    refine ⟨?_, fun hok => absurd hok hst⟩
    rw [hs1]
    exact ⟨bufWf_zeros _, rfl⟩

theorem readBlock_inOrder {s : State} (hs : InOrder s) : InOrder (readBlock s).2 := by
  obtain ⟨⟨hrx, hlayout⟩, -⟩ := readBlock_rxRead s
  obtain ⟨_, _, _, _, _, hstate⟩ := readBlock_state s
  rw [hstate] at hrx hlayout ⊢
  exact ⟨hs.tx, hrx, hs.atr, hs.txCache, hlayout, hs.timing, hs.receive⟩

theorem recvBlock_inOrder {s : State} (hs : InOrder s) (left : Nat) : InOrder (recvBlock left s).2 := by
  refine recvBlock_induct (R := fun s t => InOrder s → InOrder t) (fun _ _ _ hab hbc ha => hbc (hab ha))
    (fun _ h => readBlock_inOrder h) (fun pcb left s h => ?_) left s hs
  rw [← blockPass_decodeBlock]
  exact blockPass_inOrder h _ left

/-- A block that RecvBlock returns has its LEN in range (R250, R251). -/
theorem recvBlock_frameLen (left : Nat) (s : State) :
    (recvBlock left s).1 = .ok → frameLen (recvBlock left s).2.rxbuf ≤ 254 := by
  fun_induction recvBlock left s with
  | case1 left s s1 hread st s2 hpass =>
    intro _
    have hrx := pass_rxbuf (byteAt s1.rxbuf 1) left s1
    have hlen := (readBlock_rxRead s).len
    rw [hread] at hlen
    rw [hpass] at hrx
    rw [hrx]
    exact hlen rfl
  | case2 s s1 hread s2 hpass => exact nofun
  | case3 s s1 hread s2 left hpass ih => exact ih
  | case4 left s e s1 he hread => exact fun hok => absurd hok he

/-! ## The ATR cache and the end of a receive -/

theorem length_of_bufWf {size len : Nat} {b : List Byte} (h : bufWf size len b = true) : b.length = size := by
  simp only [bufWf, Bool.and_eq_true, beq_iff_eq] at h
  obtain ⟨⟨hlen, -⟩, -⟩ := h
  exact hlen

theorem complete_inOrder {s : State} (hs : InOrder s) (st : Status) (d : List Byte) : InOrder (complete st d s) :=
  ⟨hs.tx, hs.rx, hs.atr, hs.txCache, hs.rxLayout, hs.timing, hs.receive⟩

/-- The end of a receive keeps the order: the INF that SOFT_RESET caches is as long as LEN says (R37, R270). -/
theorem finish_inOrder {s : State} (hs : InOrder s) (c : Caller) {st : Status} (pcb : Byte)
    (hlen : st = .ok → frameLen s.rxbuf ≤ 254) : InOrder (finish c st pcb s) := by
  by_cases hok : st = .ok
  · subst hok
    cases c with
    | recv | token => exact complete_inOrder hs _ _
    | softReset =>
      by_cases hpcb : pcb = 0xEF#8
      · subst hpcb
        have hmost : frameLen s.rxbuf ≤ 254 := hlen rfl
        have hsize : s.rxbuf.length = 259 := length_of_bufWf hs.rx
        have hinf : ((s.rxbuf.drop 3).take (frameLen s.rxbuf)).length = frameLen s.rxbuf := by
          rw [List.length_take, List.length_drop]
          omega
        have hatr : bufWf Config.atrBytes (frameLen s.rxbuf)
            (bufFill Config.atrBytes ((s.rxbuf.drop 3).take (frameLen s.rxbuf))) = true := by
          have := bufWf_bufFill (size := Config.atrBytes) (hinf.trans_le hmost)
          rwa [hinf] at this
        rw [finish_softReset_response]
        exact ⟨hs.tx, hs.rx, hatr, hs.txCache, hs.rxLayout, hs.timing, hs.receive⟩
      · rw [finish_softReset_other hpcb]
        exact complete_inOrder hs _ _
    | hardReset =>
      rw [finish_hardReset]
      exact complete_inOrder hs _ _
  · rw [finish_of_ne_ok hok]
    exact complete_inOrder hs _ _

theorem runReceive_inOrder {s : State} (hs : InOrder s) (c : Caller) : InOrder (runReceive c s) := by
  rw [runReceive_eq]
  exact finish_inOrder (recvBlock_inOrder hs _) c _ (recvBlock_frameLen _ _)

/-! ## The block rows -/

theorem receiveWf_of_none {s : State} (h : s.receiving = none) : receiveWf s = true := by
  rw [receiveWf, h]

theorem withReceiving_none_inOrder {s : State} (hs : InOrder s) : InOrder { s with receiving := none } :=
  ⟨hs.tx, hs.rx, hs.atr, hs.txCache, hs.rxLayout, hs.timing, receiveWf_of_none rfl⟩

/-- A row run on a block whose LEN is in range keeps the order. -/
theorem block_inOrder {s : State} (hs : InOrder s) (hlen : frameLen s.rxbuf ≤ 254) (i : Instr) (pcb : Byte) :
    InOrder (receiveBlock (blockPass i) pcb s) := by
  obtain ⟨pcb', hpass⟩ := exists_pass_eq_blockPass i
  have hafter {left : Nat} {p : Pass} {s1 : State} (h : blockPass i left s = (p, s1)) :
      InOrder s1 ∧ s1.receiving = s.receiving ∧ frameLen s1.rxbuf ≤ 254 := by
    have hs1 := blockPass_inOrder hs i left
    obtain ⟨_, _, _, _, _, hstate⟩ := pass_state pcb' left s
    rw [← hpass, h] at hstate
    rw [h] at hs1
    refine ⟨hs1, ?_⟩
    subst hstate
    exact ⟨rfl, hlen⟩
  refine receiveBlock_induct (P := InOrder) (fun _ => hs) (fun rc s1 hrecv h => ?_) (fun rc s1 st hrecv h => ?_)
  · obtain ⟨hs1, hrecv1, -⟩ := hafter h
    have hleft : rc.left ≤ maxRetries s1 := by
      have := hs1.receive
      rw [receiveWf, hrecv1, hrecv] at this
      exact of_decide_eq_true this
    have hreceive : receiveWf { s1 with receiving := some { rc with left := rc.left - 1 } } = true :=
      decide_eq_true ((Nat.sub_le _ _).trans hleft)
    exact ⟨hs1.tx, hs1.rx, hs1.atr, hs1.txCache, hs1.rxLayout, hs1.timing, hreceive⟩
  · obtain ⟨hs1, -, hlen1⟩ := hafter h
    exact finish_inOrder (withReceiving_none_inOrder hs1) rc.caller pcb fun _ => hlen1

/-! ## The commands -/

/-- A legal command's INF fits a frame (R103, R236, R242). -/
theorem sentBlock_length {i : Instr} {ns : Bool} {pcb : Byte} {inf : List Byte} (hcheck : commandCheck i = none)
    (hsent : i.sentBlock ns = some (pcb, inf)) : inf.length ≤ 254 := by
  cases i with
  | sendI arg data | sendS arg data =>
    cases hsent
    obtain ⟨-, -, hlen⟩ := (argThenLen_eq_none_iff _ _ _ _ _).1 hcheck
    exact hlen
  | sendR | softReset | hardReset => cases hsent; exact Nat.zero_le _
  | _ => cases hsent

theorem timingWf_iff (s : State) : timingWf s = true ↔ 1 ≤ s.mpotUs.toNat ∧ 1 ≤ s.bwtMs.toNat := by
  rw [timingWf, Bool.and_eq_true, decide_eq_true_iff, decide_eq_true_iff]

/-- Legal register values keep the timing registers off 0 (R39, R40). -/
theorem writeReg_timing {arg : Byte} {data : List Byte} {s : State} (hcheck : checkWrreg arg data = none)
    (h : timingWf s = true) : timingWf (writeReg arg (wrregValue data) s) = true := by
  obtain ⟨hmpot, hbwt⟩ := (timingWf_iff s).1 h
  have hvalue {v : Nat} (hleast : 1 ≤ v) (hmost : v ≤ 65535) : 1 ≤ (BitVec.ofNat 16 v).toNat := by
    rw [BitVec.toNat_ofNat]
    omega
  refine (timingWf_iff _).2 (writeReg_induct (P := fun _ t => 1 ≤ t.mpotUs.toNat ∧ 1 ≤ t.bwtMs.toNat) hcheck
    ⟨hmpot, hbwt⟩ (fun hleast hmost => ⟨hvalue hleast hmost, hbwt⟩) (fun hleast hmost => ⟨hmpot, hvalue hleast hmost⟩)
    ⟨hmpot, hbwt⟩ (fun _ => ⟨hmpot, hbwt⟩))

theorem writeReg_inOrder {arg : Byte} {data : List Byte} {s : State} (hcheck : checkWrreg arg data = none) (hs : InOrder s)
    (hrecv : s.receiving = none) : InOrder (writeReg arg (wrregValue data) s) := by
  have htiming := writeReg_timing hcheck hs.timing
  obtain ⟨_, _, _, _, _, hstate⟩ := writeReg_state arg (wrregValue data) s
  rw [hstate] at htiming ⊢
  exact ⟨hs.tx, hs.rx, hs.atr, hs.txCache, hs.rxLayout, htiming, receiveWf_of_none hrecv⟩

/-- A command keeps the order; outside a receive, for WRREG may change MAX_RETRIES. -/
theorem commandRun_inOrder {i : Instr} {s t : State} (h : CommandRun s i t) (hs : InOrder s) (hrecv : s.receiving = none) :
    InOrder t := by
  cases h with
  | refused | answered => exact complete_inOrder hs _ _
  | sent _ pcb inf hcheck hsent =>
    have hbefore : InOrder (beforeSent i s) := by
      cases i <;> exact ⟨hs.tx, hs.rx, hs.atr, hs.txCache, hs.rxLayout, hs.timing, hs.receive⟩
    have hafter := frameSend_inOrder hbefore pcb (sentBlock_length hcheck hsent)
    refine afterFrameSend_induct (P := InOrder) (fun _ => ?_) (fun _ => complete_inOrder hafter _ _)
    cases caller i with
    | none => exact complete_inOrder hafter _ _
    | some c => exact runReceive_inOrder hafter c
  | received arg data => exact runReceive_inOrder hs .recv
  | clearedSeq arg data => exact ⟨hs.tx, hs.rx, hs.atr, hs.txCache, hs.rxLayout, hs.timing, hs.receive⟩
  | endedExchange arg data => exact ⟨bufWf_zeros _, bufWf_zeros _, hs.atr, rfl, rfl, hs.timing, hs.receive⟩
  | wroteReg arg data hcheck => exact complete_inOrder (writeReg_inOrder hcheck hs hrecv) _ _

/-! ## Reset and the step -/

theorem reset_inOrder : InOrder State.reset :=
  ⟨bufWf_zeros _, bufWf_zeros _, bufWf_zeros _, rfl, rfl, by decide, receiveWf_of_none rfl⟩

/-- Settles O10. -/
theorem resetStateIsInOrder : Obligations.ResetStateIsInOrder := by
  unfold Obligations.ResetStateIsInOrder
  exact (inOrder_iff _).2 reset_inOrder

theorem step_receiving_inOrder {s t : State} {rc : Receive} (hpin : s.resetPin = false) (hrecv : s.receiving = some rc)
    (hs : InOrder s) (hstep : step s = .next t) : InOrder t := by
  have hread := readBlock_inOrder hs
  have hrx := (readBlock_rxRead s).len
  rcases hr : readBlock s with ⟨st, s1⟩
  rw [hr] at hread hrx
  by_cases hst : st = .ok
  · subst hst
    obtain ⟨-, hl, -⟩ := decodeBlock_spec (byteAt s1.rxbuf 1)
    rw [step_of_readBlock hpin hrecv hr, exec_block hl] at hstep
    cases hstep
    exact block_inOrder hread (hrx rfl) _ _
  · rw [step_of_readBlock_error hpin hrecv hst hr] at hstep
    cases hstep
    exact complete_inOrder (withReceiving_none_inOrder hread) _ _

theorem step_command_inOrder {s t : State} (hpin : s.resetPin = false) (hrecv : s.receiving = none) (hs : InOrder s)
    (hstep : step s = .next t) : InOrder t := by
  rcases hport : decodeCommand s.port with e | ⟨i, rest⟩
  · simp only [step, hpin, hrecv, hport, Bool.false_eq_true, if_false] at hstep
    cases hstep
    exact hs
  · have hs' : InOrder { s with port := rest } := ⟨hs.tx, hs.rx, hs.atr, hs.txCache, hs.rxLayout, hs.timing, hs.receive⟩
    obtain ⟨hcommands, -⟩ := decodedBytesAreTheEncoding
    obtain ⟨-, hl, -⟩ := hcommands s.port rest i hport
    rw [step_of_decodeCommand hpin hrecv hport] at hstep
    exact commandRun_inOrder (commandRun_of_exec hl hstep) hs' hrecv

/-- Settles O9. -/
theorem stepKeepsTheStateInOrder : Obligations.StepKeepsTheStateInOrder := by
  unfold Obligations.StepKeepsTheStateInOrder
  intro s t hs hstep
  have hs := (inOrder_iff s).1 hs
  refine (inOrder_iff t).2 ?_
  by_cases hpin : s.resetPin = true
  · rw [step_of_resetPin hpin] at hstep
    cases hstep
    obtain ⟨htx, hrx, hatr, hcache, hlayout, htiming, hreceive⟩ := reset_inOrder
    exact ⟨htx, hrx, hatr, hcache, hlayout, htiming, hreceive⟩
  · have hpin : s.resetPin = false := Bool.eq_false_iff.2 hpin
    rcases hrecv : s.receiving with _ | rc
    · exact step_command_inOrder hpin hrecv hs hstep
    · exact step_receiving_inOrder hpin hrecv hs hstep

end Sys2Proof.Machine
end
